-- ==== Sys2Proof/Word.lean ====
section
/-! DEFINITION. The words of LSF: bytes and buffers (00_scope.md R7, R8). -/

namespace Sys2Proof

/-- A byte: an unsigned 8-bit value, bit 0 the least significant (R7). -/
abbrev Byte := BitVec 8

/-- A buffer: a finite sequence of bytes, index 0 first on the wire (R8, R52). -/
abbrev Buffer := List Byte

end Sys2Proof
end

