-- ==== Sys2Proof/Config.lean ====
section
/-! DEFINITION. The parameters of LSF (00_scope.md R6): the values the document fixes, the OPEN parameters as a
structure of plain data, and the free values, opaque constants with no body. -/

namespace Sys2Proof

/-- The OPEN parameters of R6, "arguments of the model". `none` is the spec's default "unbounded".
Held in State, so that a claim about every state is a claim about every value (log 8). -/
structure Params where
  /-- MAX_CHUNK: the largest chunk the transport may deliver (D17). -/
  maxChunk   : Option Nat
  /-- MAX_PAYLOAD: the longest payload `buildFrame` takes (D23). -/
  maxPayload : Option Nat
  /-- TS_BITS: the width of `lastHeartbeatTimestampMillis` and of `now` (D10). -/
  tsBits     : Option Nat
  /-- CMD_START, CMD_STOP, CMD_PAUSE: one byte each, no default (D24). -/
  cmdStart   : Byte
  cmdStop    : Byte
  cmdPause   : Byte
  deriving DecidableEq, Repr

namespace Config

/-- HEADER1 and HEADER2, the two magic bytes (R6, R71). -/
def header1 : Byte := 0xEF
def header2 : Byte := 0xDD

/-- BATTERY_RESET (R6, the spec's choice D9). -/
def batteryReset : Byte := 0
/-- TS_RESET (R6, the spec's choice D10). -/
def tsReset : Nat := 0

/-- HEARTBEAT_MIN_INTERVAL_MS (R6, R188). -/
def heartbeatMinIntervalMs : Nat := 3000
/-- HEARTBEAT_DELAY_MS (R6, R184). -/
def heartbeatDelayMs : Nat := 4000

/-- The wire body of the heartbeat (R83, R188). -/
def heartbeatBody : Buffer := [0x02, 0x00]
/-- The wire body of the tare command (R83, R189). -/
def tareBody : Buffer := [0x00]
/-- The wire body of the timer command with code byte `c` (R83, R190). -/
def timerBody (c : Byte) : Buffer := [0x00, c]
/-- IDENTIFY_LEN bytes of IDENTIFY_FILL (R6, R191). -/
def identifyBody : Buffer := List.replicate 15 0x2D
/-- NOTIF_REQUEST, the event payload of the notification request (R6, R84, R192). -/
def notifRequest : Buffer := [0, 1, 1, 5, 2, 5, 3, 4]

/-- The longest operand of WRAP: its length byte is `len + 1` (R164). -/
def maxWrap : Nat := 254

/-! ### Free values (log 7, log 8): nothing in Lean can evaluate them -/

/-- The code bytes at reset: D24 gives them no value (DESIGN CHOICE: none chosen, log 8). -/
opaque cmdStart : Byte
opaque cmdStop  : Byte
opaque cmdPause : Byte

/-- The registers after DISCONNECT, "unspecified" by R38 and R182 (U4: any value). The argument is the number of the
draw, State's `draws`, so that two disconnects need not leave the same values. -/
opaque freeInData : Nat → Bool
opaque freeMsgCode : Nat → Byte
opaque freeWeightPresent : Nat → Bool
opaque freeWeightNeg : Nat → Bool
opaque freeWeightMag : Nat → BitVec 24
opaque freeWeightExp : Nat → Fin 5
opaque freeBattery : Nat → Byte
opaque freeTimerPresent : Nat → Bool
opaque freeTimerByte : Nat → Nat → Byte
opaque freeRegistered : Nat → Bool
opaque freeTimestamp : Nat → Nat

/-- How long after the earliest allowed time an F_HEARTBEAT frame goes out: the row carries no `now` (log 14). -/
opaque freeHeartbeatDelay : Nat → Nat

end Config

end Sys2Proof
end

