-- ==== Sys2Proof/Syntax.lean ====
section
/-! DEFINITION. The instructions of LSF: one constructor of `Instr` per row of spec/opcode_table.json, and the small
enumerations their operands need (00_scope.md R11; 30_encoding.md R70 to R90). -/

namespace Sys2Proof

/-- The seven message types (30_encoding.md R73); the codes are `MsgType.code`. -/
inductive MsgType where
  | system | tare | info | status | identify | event | timer
  deriving DecidableEq, Repr

/-- The three shapes of an inbound data chunk (30_encoding.md R72). -/
inductive Shape where
  /-- length-prefixed -/
  | lp
  /-- fixed -/
  | fx
  /-- no length -/
  | nl
  deriving DecidableEq, Repr

/-- The five event codes (30_encoding.md R76); the bytes are `EventCode.code`. -/
inductive EventCode where
  | weight | battery | timer | key | ack
  deriving DecidableEq, Repr

/-- The operand of TIMERCMD (44_session.md R190). -/
inductive TimerCmd where
  | start | stop | pause
  deriving DecidableEq, Repr

/-- The five error kinds (60_exceptions.md R210). None is a fault (R220). -/
inductive ErrKind where
  | invalidHeader
  | invalidDataLength
  | unknownMessageType
  | unknownEventCode
  | invalidEventLength
  deriving DecidableEq, Repr

/-- One event record with its body bytes (30_encoding.md R77 to R81). -/
inductive EventRecord where
  | weight (b0 b1 b2 b3 b4 b5 : Byte)
  | battery (level : Byte)
  | timer (minutes seconds millis : Byte)
  | key (v : Byte)
  | ack (v0 v1 : Byte)
  deriving DecidableEq, Repr

/-- The four formats of the opcode table (30_encoding.md R90). -/
inductive Format where
  /-- a host operation: opsel and operands (R87) -/
  | op
  /-- an inbound frame: header chunk and data chunk (R71, R72) -/
  | hdr
  /-- an event record (R75) -/
  | evt
  /-- an outbound frame (R70) -/
  | txf
  deriving DecidableEq, Repr

/-- One undecoded unit of input: the format whose code space it is read in, and its bytes. What `State.inbox` lists
(log 1, log 2, log 3). -/
structure Delivery where
  fmt   : Format
  bytes : Buffer
  deriving DecidableEq, Repr

/-- The instructions: the 28 rows of spec/opcode_table.json. -/
inductive Instr where
  -- format HDR: one frame of the type, `d` its data chunk (R112 to R118)
  | mtSystem (d : Buffer)
  | mtTare (d : Buffer)
  | mtInfo (d : Buffer)
  | mtStatus (d : Buffer)
  | mtIdentify (d : Buffer)
  | mtEvent (d : Buffer)
  | mtTimer (d : Buffer)
  -- format EVT: one event record, the operands its body bytes (R135 to R139)
  | evWeight (b0 b1 b2 b3 b4 b5 : Byte)
  | evBattery (level : Byte)
  | evTimer (minutes seconds millis : Byte)
  | evKey (v : Byte)
  | evAck (v0 v1 : Byte)
  -- format TXF: one outbound command frame (R83)
  | fHeartbeat
  | fTare
  | fTimercmd (c : Byte)
  | fIdentify
  | fNotify
  -- format OP: the eleven host operations (R87)
  | connect
  | disconnect
  | feed (chunk : Buffer)
  | cksum (p : Buffer)
  | build (type : MsgType) (p : Buffer)
  | wrap (ep : Buffer)
  | heartbeat (now : Nat)
  | tare
  | timercmd (cmd : TimerCmd)
  | identify
  | notify
  deriving DecidableEq, Repr

end Sys2Proof
end

