-- ==== Sys2Proof/WellFormed.lean ====
section
/-! DEFINITION. Which instructions are well formed. The types of the operands carry every other bound: a message type
outside the seven codes is not a `MsgType` (43_message_encoder.md R163, D21). -/

namespace Sys2Proof

/-- The one check the types do not make: WRAP's operand has 0 to 254 bytes (43_message_encoder.md R164, D22). -/
def Instr.wf : Instr → Bool
  | .wrap ep => decide (ep.length ≤ Config.maxWrap)
  | .mtSystem _ | .mtTare _ | .mtInfo _ | .mtStatus _ | .mtIdentify _ | .mtEvent _ | .mtTimer _ => true
  | .evWeight .. | .evBattery _ | .evTimer .. | .evKey _ | .evAck .. => true
  | .fHeartbeat | .fTare | .fTimercmd _ | .fIdentify | .fNotify => true
  | .connect | .disconnect | .feed _ | .cksum _ | .build .. | .heartbeat _ | .tare | .timercmd _ | .identify
  | .notify => true

/-- `i` is well formed. -/
abbrev Instr.WellFormed (i : Instr) : Prop := i.wf = true

end Sys2Proof
end

