-- ==== Sys2Proof/Decode.lean ====
section
/-! DEFINITION. The code tables, the decoder, the encoder written from the same tables, and the reading of a word of
spec/opcode_table.json (30_encoding.md R70 to R90). The decoder is total on any bytes and rejects by name. -/

namespace Sys2Proof

/-! ### Code tables -/

/-- The MessageType codes (30_encoding.md R73). -/
def MsgType.code : MsgType → Byte
  | .system => 0x00
  | .tare => 0x04
  | .info => 0x07
  | .status => 0x08
  | .identify => 0x0B
  | .event => 0x0C
  | .timer => 0x0D

/-- The type a byte stands for; the other 249 values are no message type (R73). -/
def MsgType.ofCode (b : Byte) : Option MsgType :=
  if b = 0x00 then some .system
  else if b = 0x04 then some .tare
  else if b = 0x07 then some .info
  else if b = 0x08 then some .status
  else if b = 0x0B then some .identify
  else if b = 0x0C then some .event
  else if b = 0x0D then some .timer
  else none

/-- The shape of the type's inbound data chunk (30_encoding.md R72). -/
def MsgType.shape : MsgType → Shape
  | .status => .lp
  | .event => .lp
  | .info => .lp
  | .system => .fx
  | .tare => .nl
  | .identify => .nl
  | .timer => .nl

/-- The event codes (30_encoding.md R76). -/
def EventCode.code : EventCode → Byte
  | .weight => 0x05
  | .battery => 0x06
  | .timer => 0x07
  | .key => 0x08
  | .ack => 0x0B

/-- The event code a byte stands for; the other 251 values are none (R76). -/
def EventCode.ofCode (b : Byte) : Option EventCode :=
  if b = 0x05 then some .weight
  else if b = 0x06 then some .battery
  else if b = 0x07 then some .timer
  else if b = 0x08 then some .key
  else if b = 0x0B then some .ack
  else none

/-- BodyLen: the bytes a record needs after its code byte (R76; WEIGHT is 6 by C1). -/
def EventCode.bodyLen : EventCode → Nat
  | .weight => 6
  | .battery => 1
  | .timer => 3
  | .key => 1
  | .ack => 2

/-- The numeric codes of the error kinds (60_exceptions.md R210, D6). -/
def ErrKind.code : ErrKind → Nat
  | .invalidHeader => 1
  | .invalidDataLength => 2
  | .unknownMessageType => 3
  | .unknownEventCode => 4
  | .invalidEventLength => 5

/-- The code of a timer command in a delivery's operand byte: the model's own numbers (log 4), not the open wire bytes
CMD_START, CMD_STOP, CMD_PAUSE. -/
def TimerCmd.index : TimerCmd → Byte
  | .start => 0
  | .stop => 1
  | .pause => 2

/-- The timer command of an operand byte (log 4). -/
def TimerCmd.ofIndex (b : Byte) : Option TimerCmd :=
  if b = 0 then some .start else if b = 1 then some .stop else if b = 2 then some .pause else none

/-! ### Records and frames as bytes -/

/-- The code of a record. -/
def EventRecord.eventCode : EventRecord → EventCode
  | .weight .. => .weight
  | .battery _ => .battery
  | .timer .. => .timer
  | .key _ => .key
  | .ack .. => .ack

/-- The body of a record, in payload order (R77 to R81). -/
def EventRecord.body : EventRecord → Buffer
  | .weight b0 b1 b2 b3 b4 b5 => [b0, b1, b2, b3, b4, b5]
  | .battery level => [level]
  | .timer minutes seconds millis => [minutes, seconds, millis]
  | .key v => [v]
  | .ack v0 v1 => [v0, v1]

/-- The record on the wire: "buffer[0] is the event code; remaining bytes are that event's body" (R75). -/
def EventRecord.bytes (r : EventRecord) : Buffer :=
  r.eventCode.code :: r.body

/-- The instruction of a record. -/
def EventRecord.toInstr : EventRecord → Instr
  | .weight b0 b1 b2 b3 b4 b5 => .evWeight b0 b1 b2 b3 b4 b5
  | .battery level => .evBattery level
  | .timer minutes seconds millis => .evTimer minutes seconds millis
  | .key v => .evKey v
  | .ack v0 v1 => .evAck v0 v1

/-- The five outbound command frames, byte for byte as the table of R83 writes them. -/
def frameHeartbeat : Buffer := [0xEF, 0xDD, 0x00, 0x02, 0x00, 0x02, 0x00]
def frameTare : Buffer := [0xEF, 0xDD, 0x04, 0x00, 0x00, 0x00]
def frameTimercmd (c : Byte) : Buffer := [0xEF, 0xDD, 0x04, 0x00, c, 0x00, c]
def frameIdentify : Buffer :=
  [0xEF, 0xDD, 0x0B, 0x2D, 0x2D, 0x2D, 0x2D, 0x2D, 0x2D, 0x2D, 0x2D, 0x2D, 0x2D, 0x2D, 0x2D, 0x2D, 0x2D, 0x2D, 0x68, 0x3B]
def frameNotify : Buffer :=
  [0xEF, 0xDD, 0x0C, 0x09, 0x00, 0x01, 0x01, 0x05, 0x02, 0x05, 0x03, 0x04, 0x18, 0x06]

/-- The header chunk of a type (R71). -/
def headerChunk (t : MsgType) : Buffer := [Config.header1, Config.header2, t.code]

/-! ### Operand numbers (log 4) -/

/-- The little-endian base-256 digits of `n`, most significant digit not zero, at most `fuel` of them. -/
def natBytesAux : Nat → Nat → Buffer
  | 0, _ => []
  | fuel + 1, n => if n = 0 then [] else BitVec.ofNat 8 n :: natBytesAux fuel (n / 256)

/-- The bytes of a natural-number operand, least significant first; 0 is the empty buffer. -/
def natBytes (n : Nat) : Buffer := natBytesAux (n.log2 + 1) n

/-- The natural number of an operand's bytes, least significant first. -/
def natOfBytes : Buffer → Nat
  | [] => 0
  | b :: rest => b.toNat + 256 * natOfBytes rest

/-! ### The decoder -/

/-- Why a delivery is no instruction. -/
inductive DecodeError where
  /-- An operation delivery with no bytes: there is no opsel. -/
  | emptyOperation
  /-- opsel 11 to 15: "reserved and refused" (R87). -/
  | reservedOpsel
  /-- A first byte above 15 is no 4-bit opsel (R87). -/
  | opselTooWide
  /-- Operand bytes missing, left over, or no timer command (log 4). -/
  | badOperands
  /-- BUILD with a type byte outside the seven codes (R163, D21). -/
  | unknownBuildType
  /-- WRAP with more than 254 bytes (R164, D22). -/
  | wrapTooLong
  /-- A frame delivery whose header chunk matches no row (R90). -/
  | badHeader (k : ErrKind)
  /-- An event delivery whose first record does not parse (R131). -/
  | badEvent (k : ErrKind)
  /-- An event delivery that is not exactly one record. -/
  | notOneRecord
  /-- An outbound frame that is none of the five of R83. -/
  | unknownFrame
  deriving DecidableEq, Repr

/-- The header chunk tests in the order of 41_frame_decoder.md R101 (length), R102 (magic), R103 (type). -/
def decodeHeader : Buffer → Except ErrKind MsgType
  | [h1, h2, t] =>
    if h1 = Config.header1 ∧ h2 = Config.header2 then
      match MsgType.ofCode t with
      | some m => .ok m
      | none => .error .unknownMessageType
    else .error .invalidHeader
  | _ => .error .invalidHeader

/-- The body of a record of code `c` cut from the front of `body`, with the rest; `none` where `body` is shorter than
BodyLen (42_event_codec.md R133, R134). -/
def cutBody (c : EventCode) (body : Buffer) : Option (EventRecord × Buffer) :=
  match c, body with
  | .weight, b0 :: b1 :: b2 :: b3 :: b4 :: b5 :: rest => some (.weight b0 b1 b2 b3 b4 b5, rest)
  | .battery, b0 :: rest => some (.battery b0, rest)
  | .timer, b0 :: b1 :: b2 :: rest => some (.timer b0 b1 b2, rest)
  | .key, b0 :: rest => some (.key b0, rest)
  | .ack, b0 :: b1 :: rest => some (.ack b0 b1, rest)
  | _, _ => none

/-- parseOne on a non-empty buffer (42_event_codec.md R131): the code test (R132) before the length test (R133). Answers
the record and the bytes after it. -/
def parseOne (code : Byte) (body : Buffer) : Except ErrKind (EventRecord × Buffer) :=
  match EventCode.ofCode code with
  | none => .error .unknownEventCode
  | some c =>
    match cutBody c body with
    | none => .error .invalidEventLength
    | some r => .ok r

/-- Format HDR: the header chunk, then the data chunk (R71, R72, R90). -/
def decodeHdr (b : Buffer) : Except DecodeError Instr :=
  match decodeHeader (b.take 3) with
  | .error k => .error (.badHeader k)
  | .ok .system => .ok (.mtSystem (b.drop 3))
  | .ok .tare => .ok (.mtTare (b.drop 3))
  | .ok .info => .ok (.mtInfo (b.drop 3))
  | .ok .status => .ok (.mtStatus (b.drop 3))
  | .ok .identify => .ok (.mtIdentify (b.drop 3))
  | .ok .event => .ok (.mtEvent (b.drop 3))
  | .ok .timer => .ok (.mtTimer (b.drop 3))

/-- Format EVT: exactly one record (R75, R90). -/
def decodeEvt : Buffer → Except DecodeError Instr
  | [] => .error .notOneRecord
  | code :: body =>
    match parseOne code body with
    | .error k => .error (.badEvent k)
    | .ok (r, []) => .ok r.toInstr
    | .ok (_, _ :: _) => .error .notOneRecord

/-- Format TXF: one of the five frames of R83; in F_TIMERCMD the two bytes `cc` are one byte (R90). -/
def decodeTxf (b : Buffer) : Except DecodeError Instr :=
  if b = frameHeartbeat then .ok .fHeartbeat
  else if b = frameTare then .ok .fTare
  else if b = frameIdentify then .ok .fIdentify
  else if b = frameNotify then .ok .fNotify
  else
    let c := b.getD 4 0
    if b = frameTimercmd c then .ok (.fTimercmd c) else .error .unknownFrame

/-- The operation of select code `n` (R87) with the operand bytes `rest` (log 4). -/
def decodeOpsel (n : Nat) (rest : Buffer) : Except DecodeError Instr :=
  match n with
  | 0 => if rest = [] then .ok .connect else .error .badOperands
  | 1 => if rest = [] then .ok .disconnect else .error .badOperands
  | 2 => .ok (.feed rest)
  | 3 => .ok (.cksum rest)
  | 4 =>
    match rest with
    | [] => .error .badOperands
    | t :: p =>
      match MsgType.ofCode t with
      | some m => .ok (.build m p)
      | none => .error .unknownBuildType
  | 5 => if rest.length ≤ Config.maxWrap then .ok (.wrap rest) else .error .wrapTooLong
  | 6 => .ok (.heartbeat (natOfBytes rest))
  | 7 => if rest = [] then .ok .tare else .error .badOperands
  | 8 =>
    match rest with
    | [k] =>
      match TimerCmd.ofIndex k with
      | some cmd => .ok (.timercmd cmd)
      | none => .error .badOperands
    | _ => .error .badOperands
  | 9 => if rest = [] then .ok .identify else .error .badOperands
  | 10 => if rest = [] then .ok .notify else .error .badOperands
  | n => if n < 16 then .error .reservedOpsel else .error .opselTooWide

/-- Format OP: the opsel in the first byte, then the operands. -/
def decodeOp : Buffer → Except DecodeError Instr
  | [] => .error .emptyOperation
  | b :: rest => decodeOpsel b.toNat rest

/-- The decoder: a delivery is read in the code space of its format (R11, R90). -/
def decode (d : Delivery) : Except DecodeError Instr :=
  match d.fmt with
  | .op => decodeOp d.bytes
  | .hdr => decodeHdr d.bytes
  | .evt => decodeEvt d.bytes
  | .txf => decodeTxf d.bytes

/-! ### The encoder -/

/-- The delivery of an instruction, written from the same tables. -/
def encode : Instr → Delivery
  | .mtSystem d => ⟨.hdr, headerChunk .system ++ d⟩
  | .mtTare d => ⟨.hdr, headerChunk .tare ++ d⟩
  | .mtInfo d => ⟨.hdr, headerChunk .info ++ d⟩
  | .mtStatus d => ⟨.hdr, headerChunk .status ++ d⟩
  | .mtIdentify d => ⟨.hdr, headerChunk .identify ++ d⟩
  | .mtEvent d => ⟨.hdr, headerChunk .event ++ d⟩
  | .mtTimer d => ⟨.hdr, headerChunk .timer ++ d⟩
  | .evWeight b0 b1 b2 b3 b4 b5 => ⟨.evt, (EventRecord.weight b0 b1 b2 b3 b4 b5).bytes⟩
  | .evBattery level => ⟨.evt, (EventRecord.battery level).bytes⟩
  | .evTimer minutes seconds millis => ⟨.evt, (EventRecord.timer minutes seconds millis).bytes⟩
  | .evKey v => ⟨.evt, (EventRecord.key v).bytes⟩
  | .evAck v0 v1 => ⟨.evt, (EventRecord.ack v0 v1).bytes⟩
  | .fHeartbeat => ⟨.txf, frameHeartbeat⟩
  | .fTare => ⟨.txf, frameTare⟩
  | .fTimercmd c => ⟨.txf, frameTimercmd c⟩
  | .fIdentify => ⟨.txf, frameIdentify⟩
  | .fNotify => ⟨.txf, frameNotify⟩
  | .connect => ⟨.op, [0]⟩
  | .disconnect => ⟨.op, [1]⟩
  | .feed chunk => ⟨.op, 2 :: chunk⟩
  | .cksum p => ⟨.op, 3 :: p⟩
  | .build type p => ⟨.op, 4 :: type.code :: p⟩
  | .wrap ep => ⟨.op, 5 :: ep⟩
  | .heartbeat now => ⟨.op, 6 :: natBytes now⟩
  | .tare => ⟨.op, [7]⟩
  | .timercmd cmd => ⟨.op, [8, cmd.index]⟩
  | .identify => ⟨.op, [9]⟩
  | .notify => ⟨.op, [10]⟩

/-! ### Words of spec/opcode_table.json (log 13) -/

/-- The `n` bytes of `w` with the most significant first: R90 reads a header chunk as `chunk[0] * 65536 + chunk[1] * 256
+ chunk[2]`, "first byte most significant in the literal". -/
def bytesOfWord : Nat → Nat → Buffer
  | 0, _ => []
  | n + 1, w => BitVec.ofNat 8 (w / 256 ^ n) :: bytesOfWord n w

/-- The data chunk of zeros a header word is completed with: 4 bytes are enough for every type (R72). -/
def zeroChunk : Buffer := [0, 0, 0, 0]

/-- The delivery of the instruction whose table bits are `w`: 4 bits are an opsel, 8 bits an event code where R76 has
it and else an opsel, 24 bits a header chunk, more an outbound frame. Operand bytes are zeros (log 13). -/
def tableDelivery (nbits w : Nat) : Delivery :=
  let op : Delivery :=
    ⟨.op, BitVec.ofNat 8 w :: (if w = 4 ∨ w = 8 then [0] else [])⟩
  if nbits ≤ 4 then op
  else if nbits ≤ 8 then
    match EventCode.ofCode (BitVec.ofNat 8 w) with
    | some c => ⟨.evt, BitVec.ofNat 8 w :: List.replicate c.bodyLen 0⟩
    | none => op
  else if nbits ≤ 24 then ⟨.hdr, bytesOfWord (nbits / 8) w ++ zeroChunk⟩
  else ⟨.txf, bytesOfWord (nbits / 8) w⟩

/-- The instruction the decoder reads from a word of spec/opcode_table.json. -/
def decodeTableWord (nbits w : Nat) : Option Instr :=
  match decode (tableDelivery nbits w) with
  | .ok i => some i
  | .error _ => none

end Sys2Proof
end

