-- ==== Sys2Proof/Machine/State.lean ====
section
/-! DEFINITION. The state of LSF as plain data (10_state.md R20 to R39), what stops a step, and the state at power-on. -/

namespace Sys2Proof.Machine

/-- The state of the RX framer (10_state.md R21). -/
inductive FrameState where
  | header | data
  deriving DecidableEq, Repr

/-- The weight triple (10_state.md R23): sign, 24-bit magnitude, decimal exponent 0 to 4. -/
structure Weight where
  neg : Bool
  mag : BitVec 24
  exp : Fin 5
  deriving DecidableEq, Repr

/-- The timer triple (10_state.md R25). -/
structure Timer where
  minutes : Byte
  seconds : Byte
  millis  : Byte
  deriving DecidableEq, Repr

/-- An output event (20_memory.md R64). -/
inductive OutEvent where
  | err (k : ErrKind)
  | dispatch (t : MsgType) (payload : Buffer)
  | tx (b : Buffer)
  | scheduleHeartbeat (ms : Nat)
  | cancelHeartbeat
  deriving DecidableEq, Repr

/-- The value a pure operation returns to its caller (30_encoding.md R87, result column). -/
inductive Result where
  | checksum (cksum1 cksum2 : Byte)
  | buffer (b : Buffer)
  deriving DecidableEq, Repr

/-- The state of the machine. -/
structure State where
  /-- R21 -/
  fstate : FrameState
  /-- R22 -/
  msgType : Option MsgType
  /-- R23 -/
  weight : Option Weight
  /-- R24 -/
  battery : Byte
  /-- R25 -/
  timer : Option Timer
  /-- R26 -/
  notificationRegistered : Bool
  /-- R27 -/
  lastHeartbeatTimestampMillis : Nat
  /-- R28 -/
  live : Bool
  /-- the host's operations not yet performed, in its order (R60, R222; log 1) -/
  inbox : List Delivery
  /-- the output events so far, oldest first (R64; log 5) -/
  out : List OutEvent
  /-- what the last pure operation returned (R87; log 5) -/
  result : Option Result
  /-- the open parameters; no step changes them (R6; log 8) -/
  params : Params
  /-- how many times free values were drawn (log 7) -/
  draws : Nat
  deriving DecidableEq, Repr

/-- The faults: where the machine stops. The five error kinds of R210 are none of these (R220). -/
inductive Fault where
  /-- Raised by FEED and the MT_ frames in DATA state when no message type is latched. 10_state.md R22 says this never
  holds; the invariant of Safety.lean rules it out. Safe: the model stops where the spec gives no behaviour (log 11). -/
  | noLatchedType
  deriving DecidableEq, Repr

/-- The refusals: inputs "to which neither the document nor this spec gives a meaning" (60_exceptions.md R226). All
are safe: the model stops where the spec gives no step (log 12). -/
inductive Refusal where
  /-- Raised by `exec` for an instruction with no meaning yet. Safe. -/
  | notModelled (mnemonic : String)
  /-- Raised by every session operation, and by what runs only inside one, while live = 0 (44_session.md R195). Safe. -/
  | notLive
  /-- Raised by FEED for a chunk longer than a finite MAX_CHUNK (R226, D17). Safe. -/
  | chunkTooLong
  /-- Raised where a frame is built, by the host's operations or by the session's, for a wire body longer than a finite
  MAX_PAYLOAD (R226, D23; log 9). Safe. -/
  | payloadTooLong
  /-- Raised by WRAP for more than 254 bytes (R164, R226, D22). Safe. -/
  | wrapTooLong
  /-- Raised by HEARTBEAT for a `now` of more than a finite TS_BITS bits (U16, D10; log 10), and by F_HEARTBEAT where no
  allowed time has TS_BITS bits (log 14). Safe. -/
  | nowTooWide
  /-- Raised by `step` for a delivery that is no instruction and that no rule gives an effect: a reserved opsel, BUILD
  with another type byte, operand bytes that are no operands, event bytes no payload can hold (log 2), an outbound frame
  LSF never builds (R87, R226). Safe. -/
  | undecodable (e : DecodeError)
  deriving DecidableEq, Repr

/-- The parameters at reset: R6's defaults; CMD_START, CMD_STOP and CMD_PAUSE have none and are opaque (log 8). -/
def Params.atReset : Params where
  maxChunk := none
  maxPayload := none
  tsBits := none
  cmdStart := Config.cmdStart
  cmdStop := Config.cmdStop
  cmdPause := Config.cmdPause

/-- Power-on (70_reset_and_hazards.md R240): live = 0, nothing delivered, nothing emitted. The other registers are
"unspecified" (R38); each holds the value log 6 names (DESIGN CHOICE). -/
def State.reset : State where
  fstate := .header
  msgType := none
  weight := none
  battery := 0
  timer := none
  notificationRegistered := false
  lastHeartbeatTimestampMillis := 0
  live := false
  inbox := []
  out := []
  result := none
  params := Params.atReset
  draws := 0

end Sys2Proof.Machine
end

