-- ==== Sys2Proof/Machine/Flags.lean ====
section
/-! DEFINITION. The one-bit status values of LSF (10_state.md R33). There are no condition codes; no operation writes a
flag as a side effect. `notificationRegistered` and `live` are fields of State; the presence bits are read off. -/

namespace Sys2Proof.Machine

/-- R33 (a), R26. -/
def registeredFlag (s : State) : Bool := s.notificationRegistered

/-- R33 (b), R28. -/
def liveFlag (s : State) : Bool := s.live

/-- R33 (c): the presence bit of `weight`. -/
def weightPresent (s : State) : Bool := s.weight.isSome

/-- R33 (d): the presence bit of `timer`. -/
def timerPresent (s : State) : Bool := s.timer.isSome

/-- The sign flag of an EV_WEIGHT body: bit 1 (mask 0x02) of `body[5]`; the other seven bits are never read
(30_encoding.md R77). -/
def signFlag (flags : Byte) : Bool := flags.getLsbD 1

end Sys2Proof.Machine
end

