-- ==== Sys2Proof/Machine/Operands.lean ====
section
/-! DEFINITION. Every operand form of LSF: the cut of a data chunk (41_frame_decoder.md R105 to R107), the fields of an
event body (42_event_codec.md R135, R137), the weight's value (R140), the bounds (00_scope.md R6), the code byte of a timer command
(44_session.md R190). -/

namespace Sys2Proof.Machine

/-- Whether a length respects an OPEN bound; `none` is "unbounded" (R6). -/
def within (bound : Option Nat) (n : Nat) : Bool :=
  match bound with
  | none => true
  | some m => decide (n ≤ m)

/-- Whether a number fits in an OPEN width of bits (R6 TS_BITS, U16). -/
def fitsBits (bits : Option Nat) (n : Nat) : Bool :=
  match bits with
  | none => true
  | some w => decide (n < 2 ^ w)

/-- A number brought below an OPEN width (used for the free timestamp only, log 7). -/
def keepBits (bits : Option Nat) (n : Nat) : Nat :=
  match bits with
  | none => n
  | some w => n % 2 ^ w

/-- The inclusive slice `b[i .. i + n - 1]` of `n` bytes; empty for `n = 0` (R8, D16). -/
def slice (b : Buffer) (i n : Nat) : Buffer := (b.drop i).take n

/-- `L` and `offset` of a data chunk (41_frame_decoder.md R105); `none` where the length byte does not exist (D14). `L`
is a natural number (R106, D15). -/
def lengthAndOffset (t : MsgType) (chunk : Buffer) : Option (Nat × Nat) :=
  match t.shape with
  | .lp =>
    match chunk with
    | [] => none
    | b :: _ => some (if b = 0 then 1 else b.toNat, 1)
  | .fx => some (2, 0)
  | .nl => some (0, 0)

/-- The length test (R106) and the cut (R107): the application payload, or `none` for InvalidDataLength. Bytes from
index `L` on are never read (R109, R110). -/
def cutPayload (t : MsgType) (chunk : Buffer) : Option Buffer :=
  match lengthAndOffset t chunk with
  | none => none
  | some (len, offset) =>
    if chunk.length < len + 2 then none
    else if 1 ≤ len then some (slice chunk offset (len - 1))
    else some []

/-- The 24-bit magnitude, little-endian (20_memory.md R53, R135). -/
def magnitude (b0 b1 b2 : Byte) : BitVec 24 :=
  BitVec.ofNat 24 (b0.toNat + 256 * b1.toNat + 65536 * b2.toNat)

/-- The exponent a unit code selects; any code above 4 is divisor 1 (R77, R135). -/
def unitExp (unit : Byte) : Fin 5 :=
  if h : unit.toNat < 5 then ⟨unit.toNat, h⟩ else 0

/-- The weight of an EV_WEIGHT body (R135). -/
def weightOf (b0 b1 b2 unit flags : Byte) : Weight where
  neg := signFlag flags
  mag := magnitude b0 b1 b2
  exp := unitExp unit

/-- Wval (42_event_codec.md R140): the exact rational value of a weight. -/
def weightValue (w : Weight) : Rat :=
  (if w.neg then -1 else 1) * (w.mag.toNat : Rat) / (10 : Rat) ^ w.exp.val

/-- The wire code byte of a timer command (44_session.md R190), one of the open parameters (D24). -/
def cmdByte (p : Params) : TimerCmd → Byte
  | .start => p.cmdStart
  | .stop => p.cmdStop
  | .pause => p.cmdPause

end Sys2Proof.Machine
end

