-- ==== Sys2Proof/Machine/Ops.lean ====
section
/-! DEFINITION. The named operations over the registers and the output list: emitting an event (20_memory.md R64), raising an
error (60_exceptions.md R218), the session gate (44_session.md R195), the read accessors (10_state.md R35), the loss of the
registers at DISCONNECT (R182). -/

namespace Sys2Proof.Machine

/-- `emit E`: append the event to the output list (00_scope.md R10). -/
def emit (e : OutEvent) (s : State) : State := { s with out := s.out ++ [e] }

/-- `Send(b)`: hand one whole buffer to the Transport (44_session.md R180, R57). -/
def send (b : Buffer) (s : State) : State := emit (.tx b) s

/-- TAKING AN ERROR, the whole of it (R210 table, R218): append `Err(kind)` and take the kind's recovery. Nothing is
saved, no mode changes, no vector is consulted. Only InvalidDataLength moves `fstate`; for the header kinds it stays HEADER,
for the event kinds the framer returns to HEADER by itself (R108). There is no return-from-error operation (R219). -/
def raise (k : ErrKind) (s : State) : State :=
  match k with
  | .invalidDataLength => { emit (.err .invalidDataLength) s with fstate := .header }
  | .invalidHeader => emit (.err .invalidHeader) s
  | .unknownMessageType => emit (.err .unknownMessageType) s
  | .unknownEventCode => emit (.err .unknownEventCode) s
  | .invalidEventLength => emit (.err .invalidEventLength) s

/-- The session gate (R195): the operation's outcome is `o` while live = 1; while live = 0 it is refused. -/
def inSession (s : State) (o : Host.Outcome State Fault Refusal) : Host.Outcome State Fault Refusal :=
  if s.live then o else .refused .notLive

/-- Carry on from a next state; a stop stays a stop. -/
def andThen (o : Host.Outcome State Fault Refusal) (f : State → Host.Outcome State Fault Refusal) :
    Host.Outcome State Fault Refusal :=
  match o with
  | .next s => f s
  | .fault r => .fault r
  | .refused r => .refused r

/-- A pure operation's answer to its caller (R87): no register, no output event. -/
def answer (r : Result) (s : State) : State := { s with result := some r }

/-- "every other register becomes unspecified" (R182, R38, U4): each register but `live` takes a free value (log 7). The
timestamp keeps its width (R27). -/
def discard (s : State) : State :=
  { s with
    fstate := if Config.freeInData s.draws then .data else .header
    msgType := MsgType.ofCode (Config.freeMsgCode s.draws)
    weight :=
      if Config.freeWeightPresent s.draws then
        some ⟨Config.freeWeightNeg s.draws, Config.freeWeightMag s.draws, Config.freeWeightExp s.draws⟩
      else none
    battery := Config.freeBattery s.draws
    timer :=
      if Config.freeTimerPresent s.draws then
        some ⟨Config.freeTimerByte s.draws 0, Config.freeTimerByte s.draws 1, Config.freeTimerByte s.draws 2⟩
      else none
    notificationRegistered := Config.freeRegistered s.draws
    lastHeartbeatTimestampMillis := keepBits s.params.tsBits (Config.freeTimestamp s.draws)
    draws := s.draws + 1 }

/-- The read accessor of `weight` (R35): it returns the content and changes nothing. -/
def readWeight (s : State) : Option Weight := s.weight

/-- The read accessor of `battery` (R35). -/
def readBattery (s : State) : Byte := s.battery

/-- The read accessor of `timer` (R35). -/
def readTimer (s : State) : Option Timer := s.timer

end Sys2Proof.Machine
end

