-- ==== Sys2Proof/Machine/Builder.lean ====
section
/-! DEFINITION. The checksum generator and the frame builder (43_message_encoder.md), and the meanings of CKSUM, BUILD and
WRAP, all of them pure. -/

namespace Sys2Proof.Machine

/-- CKSUM (R160): the sum mod 256 of the bytes at even indices, and of those at odd indices. Dropping the first byte
swaps the two lanes. -/
def checksum : Buffer → Byte × Byte
  | [] => (0, 0)
  | b :: rest => (b + (checksum rest).2, (checksum rest).1)

/-- The transient state of the streaming form (R161): two accumulators and the index parity. -/
structure ChecksumStream where
  a1  : Byte
  a2  : Byte
  par : Bool
  deriving DecidableEq, Repr

/-- One byte of the streaming form (R161). -/
def streamByte (c : ChecksumStream) (b : Byte) : ChecksumStream :=
  if c.par then { c with a2 := c.a2 + b, par := false } else { c with a1 := c.a1 + b, par := true }

/-- The streaming form (R161) over a whole wire body. -/
def streamChecksum (p : Buffer) : Byte × Byte :=
  let c := p.foldl streamByte ⟨0, 0, false⟩
  (c.a1, c.a2)

/-- BUILD (R163): `[0xEF, 0xDD, type] ++ p ++ [c1, c2]`. -/
def buildFrame (t : MsgType) (p : Buffer) : Buffer :=
  [Config.header1, Config.header2, t.code] ++ p ++ [(checksum p).1, (checksum p).2]

/-- The wire body of WRAP (R82, R164): one length byte, then the event payload. -/
def wrapBody (ep : Buffer) : Buffer := BitVec.ofNat 8 (ep.length + 1) :: ep

/-- WRAP (R164). -/
def wrapFrame (ep : Buffer) : Buffer := buildFrame .event (wrapBody ep)

/-- The data chunk of an inbound MT_EVENT frame with application payload `payload`: the wire body of R82 and the two bytes
an encoder puts behind it (R72). -/
def eventChunk (payload : Buffer) : Buffer :=
  wrapBody payload ++ [(checksum (wrapBody payload)).1, (checksum (wrapBody payload)).2]

/-- Every building of a frame, by the host or by the session (20_memory.md R50), goes through here: `buildFrame` takes at most
MAX_PAYLOAD bytes (R6, R163); a longer body is refused (R226), and with it the whole operation (log 9). `use` says what
becomes of the frame. -/
def buildThen (t : MsgType) (p : Buffer) (use : Buffer → State → Host.Outcome State Fault Refusal) (s : State) :
    Host.Outcome State Fault Refusal :=
  if within s.params.maxPayload p.length then use (buildFrame t p) s else .refused .payloadTooLong

/-- WRAP is BUILD of the wrapped body (R164); more than 254 bytes are refused (D22). -/
def wrapThen (ep : Buffer) (use : Buffer → State → Host.Outcome State Fault Refusal) (s : State) :
    Host.Outcome State Fault Refusal :=
  if ep.length ≤ Config.maxWrap then buildThen .event (wrapBody ep) use s else .refused .wrapTooLong

/-- The frame is returned to the caller (R87). -/
def returnFrame (b : Buffer) (s : State) : Host.Outcome State Fault Refusal := .next (answer (.buffer b) s)

/-- The frame is handed to the Transport (44_session.md R180). -/
def sendFrame (b : Buffer) (s : State) : Host.Outcome State Fault Refusal := .next (send b s)

/-- CKSUM p (R160): accepted whatever `live` is (R195). -/
def execCksum (p : Buffer) (s : State) : Host.Outcome State Fault Refusal :=
  .next (answer (.checksum (checksum p).1 (checksum p).2) s)

/-- BUILD type p (R163). -/
def execBuild (t : MsgType) (p : Buffer) (s : State) : Host.Outcome State Fault Refusal := buildThen t p returnFrame s

/-- WRAP ep (R164). -/
def execWrap (ep : Buffer) (s : State) : Host.Outcome State Fault Refusal := wrapThen ep returnFrame s

end Sys2Proof.Machine
end

