-- ==== Sys2Proof/Machine/Events.lean ====
section
/-! DEFINITION. The event decoder (42_event_codec.md): the effect of each record and the sequence loop. It runs only inside
FEED, on an MT_EVENT payload (30_encoding.md R87); the five EVT rows stand in Framer.lean. -/

namespace Sys2Proof.Machine

/-- R135: `weight <- (neg, mag, exp)`; `body[3]` is not read. -/
def applyWeight (b0 b1 b2 unit flags : Byte) (s : State) : State :=
  { s with weight := some (weightOf b0 b1 b2 unit flags) }

/-- R136: `battery <- body[0]`, verbatim. -/
def applyBattery (level : Byte) (s : State) : State := { s with battery := level }

/-- R137: `timer <- (body[0], body[1], body[2])`, as received. -/
def applyTimer (minutes seconds millis : Byte) (s : State) : State :=
  { s with timer := some ⟨minutes, seconds, millis⟩ }

/-- R138: the value is discarded; no register is written. -/
def applyKey (_v : Byte) (s : State) : State := s

/-- R139: the value is discarded; no register is written. -/
def applyAck (_v0 _v1 : Byte) (s : State) : State := s

/-- The effect of one record (R131 "apply the record's rule to body"). -/
def applyRecord : EventRecord → State → State
  | .weight b0 b1 b2 _b3 b4 b5, s => applyWeight b0 b1 b2 b4 b5 s
  | .battery level, s => applyBattery level s
  | .timer minutes seconds millis, s => applyTimer minutes seconds millis s
  | .key v, s => applyKey v s
  | .ack v0 v1, s => applyAck v0 v1 s

/-- The loop of R130 on the remaining slice, at most `fuel` records. -/
def parseLoop : Nat → Buffer → State → State
  | 0, _, s => s
  | _ + 1, [], s => s
  | fuel + 1, code :: body, s =>
    match parseOne code body with
    | .error k => raise k s
    | .ok (r, rest) => parseLoop fuel rest (applyRecord r s)

/-- parseSequence (R130): records in payload order until the payload is exhausted or one fails; what was applied stays
applied (R142); a failure emits one diagnostic Err and goes no further (R141). A record has at least one byte, so the
payload's length is enough fuel (`parseSequence_cons` in Laws). -/
def parseSequence (payload : Buffer) (s : State) : State := parseLoop payload.length payload s

end Sys2Proof.Machine
end

