-- ==== Sys2Proof/Machine/Session.lean ====
section
/-! DEFINITION. The session layer (44_session.md): life cycle, dispatch, commands, and the TXF rows (30_encoding.md R83). A handler or a command whose frame
MAX_PAYLOAD does not allow is refused with the whole operation it runs in (log 9). -/

namespace Sys2Proof.Machine

/-! ### Commands: the bodies, which the dispatcher also runs -/

/-- The body of TARE (R189). -/
def sendTare (s : State) : Host.Outcome State Fault Refusal := buildThen .tare Config.tareBody sendFrame s

/-- The timer command's frame with code byte `c` (R190): the type is MT_TARE, not MT_TIMER (D25). -/
def sendTimerCode (c : Byte) (s : State) : Host.Outcome State Fault Refusal :=
  buildThen .tare (Config.timerBody c) sendFrame s

/-- The body of TIMERCMD (R190). -/
def sendTimerCommand (cmd : TimerCmd) (s : State) : Host.Outcome State Fault Refusal :=
  sendTimerCode (cmdByte s.params cmd) s

/-- The body of IDENTIFY (R191). -/
def sendIdentify (s : State) : Host.Outcome State Fault Refusal := buildThen .identify Config.identifyBody sendFrame s

/-- The body of NOTIFY (R192): the flag is set after the Tx, on every call (D29). -/
def sendNotificationRequest (s : State) : Host.Outcome State Fault Refusal :=
  andThen (wrapThen Config.notifRequest sendFrame s) fun u => .next { u with notificationRegistered := true }

/-- The frame of HEARTBEAT and the stamp of it (R188; R27: the stamp is the `now` of the last heartbeat transmitted). -/
def sendHeartbeatFrame (now : Nat) (s : State) : Host.Outcome State Fault Refusal :=
  andThen (buildThen .system Config.heartbeatBody sendFrame s) fun u =>
    .next { u with lastHeartbeatTimestampMillis := now }

/-- The earliest `now` at which a heartbeat is sent (R188). -/
def earliestHeartbeat (s : State) : Nat := s.lastHeartbeatTimestampMillis + Config.heartbeatMinIntervalMs

/-- The body of HEARTBEAT (R188): a comparison on natural numbers. -/
def sendHeartbeat (now : Nat) (s : State) : Host.Outcome State Fault Refusal :=
  if earliestHeartbeat s > now then .next s else sendHeartbeatFrame now s

/-- The time at which an F_HEARTBEAT frame goes out: a free value among those R188 sends a heartbeat at, brought below
TS_BITS where that is finite (log 14). -/
def unstatedNow (s : State) : Nat :=
  match s.params.tsBits with
  | none => earliestHeartbeat s + Config.freeHeartbeatDelay s.draws
  | some w => earliestHeartbeat s + Config.freeHeartbeatDelay s.draws % (2 ^ w - earliestHeartbeat s)

/-! ### Dispatch -/

/-- The first write of HandleInfo (R184): `battery <- payload[4]`, skipped for a payload shorter than 5 bytes (D20). -/
def infoBattery (payload : Buffer) (s : State) : State :=
  match payload[4]? with
  | some b => { s with battery := b }
  | none => s

/-- HandleInfo (R184): the battery, then identify, then the request for the delayed heartbeat. -/
def handleInfo (payload : Buffer) (s : State) : Host.Outcome State Fault Refusal :=
  andThen (sendIdentify (infoBattery payload s)) fun u => .next (emit (.scheduleHeartbeat Config.heartbeatDelayMs) u)

/-- HandleStatus (R185): the payload is not read. -/
def handleStatus (s : State) : Host.Outcome State Fault Refusal :=
  if s.notificationRegistered then .next s else sendNotificationRequest s

/-- Dispatcher (R183 to R187). -/
def dispatcher (t : MsgType) (payload : Buffer) (s : State) : Host.Outcome State Fault Refusal :=
  match t with
  | .info => handleInfo payload s
  | .status => handleStatus s
  | .event => .next (parseSequence payload s)
  | .system => .next s
  | .tare => .next s
  | .identify => .next s
  | .timer => .next s

/-- The dispatcher of a core-tier model (41_frame_decoder.md R119). The machine here has the session tier and runs
`dispatcher`; this one is kept for claims about the core tier alone. -/
def coreDispatcher (t : MsgType) (payload : Buffer) (s : State) : State :=
  match t with
  | .event => parseSequence payload s
  | .info => s
  | .status => s
  | .system => s
  | .tare => s
  | .identify => s
  | .timer => s

/-! ### Life cycle -/

/-- The body of CONNECT (R181, R241): always accepted; it does not cancel a heartbeat and emits nothing. -/
def openSession (s : State) : State :=
  { s with
    weight := none
    timer := none
    battery := Config.batteryReset
    notificationRegistered := false
    lastHeartbeatTimestampMillis := Config.tsReset
    fstate := .header
    msgType := none
    live := true }

/-- The body of DISCONNECT (R182). -/
def closeSession (s : State) : State := { discard (emit .cancelHeartbeat s) with live := false }

/-! ### Meanings -/

/-- CONNECT (R181). -/
def execConnect (s : State) : Host.Outcome State Fault Refusal := .next (openSession s)

/-- DISCONNECT (R182). -/
def execDisconnect (s : State) : Host.Outcome State Fault Refusal := inSession s (.next (closeSession s))

/-- HEARTBEAT now (R188); a `now` wider than a finite TS_BITS is refused (U16, log 10). -/
def execHeartbeat (now : Nat) (s : State) : Host.Outcome State Fault Refusal :=
  inSession s (if fitsBits s.params.tsBits now then sendHeartbeat now s else .refused .nowTooWide)

/-- TARE (R189). -/
def execTare (s : State) : Host.Outcome State Fault Refusal := inSession s (sendTare s)

/-- TIMERCMD cmd (R190). -/
def execTimercmd (cmd : TimerCmd) (s : State) : Host.Outcome State Fault Refusal := inSession s (sendTimerCommand cmd s)

/-- IDENTIFY (R191). -/
def execIdentify (s : State) : Host.Outcome State Fault Refusal := inSession s (sendIdentify s)

/-- NOTIFY (R192). -/
def execNotify (s : State) : Host.Outcome State Fault Refusal := inSession s (sendNotificationRequest s)

/-! ### The TXF rows: the frame of R83 goes out as the session sends it (log 14) -/

/-- F_HEARTBEAT (R83, R188): the frame goes out at a time the row does not state, and the stamp is that time (R27). Where
TS_BITS leaves no such time it is refused. -/
def execFHeartbeat (s : State) : Host.Outcome State Fault Refusal :=
  inSession s <|
    if fitsBits s.params.tsBits (earliestHeartbeat s) then
      sendHeartbeatFrame (unstatedNow s) { s with draws := s.draws + 1 }
    else .refused .nowTooWide

/-- F_TARE (R83, R189). -/
def execFTare (s : State) : Host.Outcome State Fault Refusal := inSession s (sendTare s)

/-- F_TIMERCMD with code byte `c` (R83, R190). -/
def execFTimercmd (c : Byte) (s : State) : Host.Outcome State Fault Refusal := inSession s (sendTimerCode c s)

/-- F_IDENTIFY (R83, R191). -/
def execFIdentify (s : State) : Host.Outcome State Fault Refusal := inSession s (sendIdentify s)

/-- F_NOTIFY (R83, R192): the flag is set whenever the request is handed over (70_reset_and_hazards.md R250). -/
def execFNotify (s : State) : Host.Outcome State Fault Refusal := inSession s (sendNotificationRequest s)

end Sys2Proof.Machine
end

