-- ==== Sys2Proof/Machine/Framer.lean ====
section
/-! DEFINITION. The RX framer (41_frame_decoder.md): FEED, the meanings of the seven HDR rows, and those of the five EVT rows,
whose records run only inside FEED (30_encoding.md R87). -/

namespace Sys2Proof.Machine

/-- FeedHeader (R101 to R104). -/
def feedHeader (chunk : Buffer) (s : State) : State :=
  match decodeHeader chunk with
  | .error k => raise k s
  | .ok t => { s with msgType := some t, fstate := .data }

/-- FeedData (R105 to R108) under the latched type `t`. The trailing bytes are not compared with anything (R110). -/
def feedData (t : MsgType) (chunk : Buffer) (s : State) : Host.Outcome State Fault Refusal :=
  match cutPayload t chunk with
  | none => .next (raise .invalidDataLength s)
  | some payload =>
    andThen (dispatcher t payload (emit (.dispatch t payload) s)) fun u => .next { u with fstate := .header }

/-- FEED (R100): one chunk, at most one transition. -/
def feedChunk (chunk : Buffer) (s : State) : Host.Outcome State Fault Refusal :=
  inSession s <|
    if within s.params.maxChunk chunk.length then
      match s.fstate with
      | .header => .next (feedHeader chunk s)
      | .data =>
        match s.msgType with
        | some t => feedData t chunk s
        | none => .fault .noLatchedType
    else .refused .chunkTooLong

/-- Two chunks delivered one after the other (30_encoding.md R88: FRAME "stands for the two operations"). -/
def feedTwo (header data : Buffer) (s : State) : Host.Outcome State Fault Refusal :=
  andThen (feedChunk header s) (feedChunk data)

/-- FEED chunk (R100). -/
def execFeed (chunk : Buffer) (s : State) : Host.Outcome State Fault Refusal := feedChunk chunk s

/-- MT_SYSTEM (R112): the frame's header chunk, then its data chunk `d`. -/
def execMtSystem (d : Buffer) (s : State) : Host.Outcome State Fault Refusal := feedTwo (headerChunk .system) d s

/-- MT_TARE (R113). -/
def execMtTare (d : Buffer) (s : State) : Host.Outcome State Fault Refusal := feedTwo (headerChunk .tare) d s

/-- MT_INFO (R114). -/
def execMtInfo (d : Buffer) (s : State) : Host.Outcome State Fault Refusal := feedTwo (headerChunk .info) d s

/-- MT_STATUS (R115). -/
def execMtStatus (d : Buffer) (s : State) : Host.Outcome State Fault Refusal := feedTwo (headerChunk .status) d s

/-- MT_IDENTIFY (R116). -/
def execMtIdentify (d : Buffer) (s : State) : Host.Outcome State Fault Refusal := feedTwo (headerChunk .identify) d s

/-- MT_EVENT (R117). -/
def execMtEvent (d : Buffer) (s : State) : Host.Outcome State Fault Refusal := feedTwo (headerChunk .event) d s

/-- MT_TIMER (R118). -/
def execMtTimer (d : Buffer) (s : State) : Host.Outcome State Fault Refusal := feedTwo (headerChunk .timer) d s

/-! ### The EVT rows: a record arrives as the payload of an MT_EVENT frame (log 2) -/

/-- The MT_EVENT frame whose application payload is `payload` (R117), fed as its two chunks. -/
def feedEvent (payload : Buffer) (s : State) : Host.Outcome State Fault Refusal :=
  feedTwo (headerChunk .event) (eventChunk payload) s

/-- EV_WEIGHT (42_event_codec.md R135). -/
def execEvWeight (b0 b1 b2 b3 b4 b5 : Byte) (s : State) : Host.Outcome State Fault Refusal :=
  feedEvent (EventRecord.weight b0 b1 b2 b3 b4 b5).bytes s

/-- EV_BATTERY (R136). -/
def execEvBattery (level : Byte) (s : State) : Host.Outcome State Fault Refusal :=
  feedEvent (EventRecord.battery level).bytes s

/-- EV_TIMER (R137). -/
def execEvTimer (minutes seconds millis : Byte) (s : State) : Host.Outcome State Fault Refusal :=
  feedEvent (EventRecord.timer minutes seconds millis).bytes s

/-- EV_KEY (R138). -/
def execEvKey (v : Byte) (s : State) : Host.Outcome State Fault Refusal := feedEvent (EventRecord.key v).bytes s

/-- EV_ACK (R139). -/
def execEvAck (v0 v1 : Byte) (s : State) : Host.Outcome State Fault Refusal := feedEvent (EventRecord.ack v0 v1).bytes s

end Sys2Proof.Machine
end

