-- ==== Sys2Proof/Machine/Fetch.lean ====
section
/-! DEFINITION. Taking the next delivery from the inbox, what a delivery that is no instruction does, and placing a table
word where the next step takes it (log 1, log 2, log 3, log 13). -/

namespace Sys2Proof.Machine

/-- The next delivery and the state without it; `none` while nothing is pending. -/
def fetch (s : State) : Option (Delivery × State) :=
  match s.inbox with
  | [] => none
  | d :: rest => some (d, { s with inbox := rest })

/-- With nothing pending LSF "is simply idle and holds its registers" (60_exceptions.md R225). -/
def idle (s : State) : Host.Outcome State Fault Refusal := .next s

/-- An event delivery that is not one record is the payload of one MT_EVENT frame, as a single record is (log 2). A payload
has at most 254 bytes (42_event_codec.md R130); more fit in no frame and are refused under `e`. -/
def feedUndecodedEvents (payload : Buffer) (e : DecodeError) (s : State) : Host.Outcome State Fault Refusal :=
  if payload.length ≤ Config.maxWrap then feedEvent payload s else .refused (.undecodable e)

/-- What a delivery that matches no row does (30_encoding.md R90): a header chunk is InvalidHeader or UnknownMessageType and
a code byte UnknownEventCode, by feeding the same chunks; an operation is refused. -/
def runUndecoded (d : Delivery) (e : DecodeError) (s : State) : Host.Outcome State Fault Refusal :=
  match e with
  | .badHeader _ => feedTwo (d.bytes.take 3) (d.bytes.drop 3) s
  | .badEvent _ => feedUndecodedEvents d.bytes e s
  | .notOneRecord => feedUndecodedEvents d.bytes e s
  | .emptyOperation => .refused (.undecodable e)
  | .reservedOpsel => .refused (.undecodable e)
  | .opselTooWide => .refused (.undecodable e)
  | .badOperands => .refused (.undecodable e)
  | .unknownBuildType => .refused (.undecodable e)
  | .wrapTooLong => .refused .wrapTooLong
  | .unknownFrame => .refused (.undecodable e)

/-- Whether an instruction runs only inside a session (R195): all but CONNECT and the three pure operations. -/
def needsSession : Instr → Bool
  | .connect | .cksum _ | .build .. | .wrap _ => false
  | .mtSystem _ | .mtTare _ | .mtInfo _ | .mtStatus _ | .mtIdentify _ | .mtEvent _ | .mtTimer _ => true
  | .evWeight .. | .evBattery _ | .evTimer .. | .evKey _ | .evAck .. => true
  | .fHeartbeat | .fTare | .fTimercmd _ | .fIdentify | .fNotify => true
  | .disconnect | .feed _ | .heartbeat _ | .tare | .timercmd _ | .identify | .notify => true

/-- `s` with the instruction of a table word as its next delivery. An instruction that runs only inside a session, placed
in a state that has none, takes the session with it, as CONNECT opens it (log 13). -/
def placeTableWord (s : State) (nbits w : Nat) : State :=
  let d := tableDelivery nbits w
  let s1 :=
    match decode d with
    | .ok i => if needsSession i && !s.live then openSession s else s
    | .error _ => s
  { s1 with inbox := d :: s1.inbox }

end Sys2Proof.Machine
end

