-- ==== Sys2Proof/Machine/Dispatch.lean ====
section
/-! DEFINITION. One arm per constructor of Instr, each one direct call of its meaning. -/

namespace Sys2Proof.Machine

def exec (i : Instr) (s : State) : Host.Outcome State Fault Refusal :=
  match i with
  -- HDR
  | .mtSystem d => Sys2Proof.Machine.execMtSystem d s
  | .mtTare d => Sys2Proof.Machine.execMtTare d s
  | .mtInfo d => Sys2Proof.Machine.execMtInfo d s
  | .mtStatus d => Sys2Proof.Machine.execMtStatus d s
  | .mtIdentify d => Sys2Proof.Machine.execMtIdentify d s
  | .mtEvent d => Sys2Proof.Machine.execMtEvent d s
  | .mtTimer d => Sys2Proof.Machine.execMtTimer d s
  -- EVT
  | .evWeight b0 b1 b2 b3 b4 b5 => Sys2Proof.Machine.execEvWeight b0 b1 b2 b3 b4 b5 s
  | .evBattery level => Sys2Proof.Machine.execEvBattery level s
  | .evTimer minutes seconds millis => Sys2Proof.Machine.execEvTimer minutes seconds millis s
  | .evKey v => Sys2Proof.Machine.execEvKey v s
  | .evAck v0 v1 => Sys2Proof.Machine.execEvAck v0 v1 s
  -- TXF
  | .fHeartbeat => Sys2Proof.Machine.execFHeartbeat s
  | .fTare => Sys2Proof.Machine.execFTare s
  | .fTimercmd c => Sys2Proof.Machine.execFTimercmd c s
  | .fIdentify => Sys2Proof.Machine.execFIdentify s
  | .fNotify => Sys2Proof.Machine.execFNotify s
  -- OP
  | .connect => Sys2Proof.Machine.execConnect s
  | .disconnect => Sys2Proof.Machine.execDisconnect s
  | .feed chunk => Sys2Proof.Machine.execFeed chunk s
  | .cksum p => Sys2Proof.Machine.execCksum p s
  | .build type p => Sys2Proof.Machine.execBuild type p s
  | .wrap ep => Sys2Proof.Machine.execWrap ep s
  | .heartbeat now => Sys2Proof.Machine.execHeartbeat now s
  | .tare => Sys2Proof.Machine.execTare s
  | .timercmd cmd => Sys2Proof.Machine.execTimercmd cmd s
  | .identify => Sys2Proof.Machine.execIdentify s
  | .notify => Sys2Proof.Machine.execNotify s

end Sys2Proof.Machine
end

