-- ==== Sys2Proof/Machine/Step.lean ====
section
/-! DEFINITION. One step: take the next delivery, decode it, run it. -/

namespace Sys2Proof.Machine

/-- One step of the machine: one delivery, run to completion (20_memory.md R61). -/
def step (s : State) : Host.Outcome State Fault Refusal :=
  match fetch s with
  | none => idle s
  | some (d, s') =>
    match decode d with
    | .ok i => exec i s'
    | .error e => runUndecoded d e s'

/-- `s` with the instruction of a table word where the next step takes its instruction (log 13). -/
def State.withFetchWord (s : State) (nbits w : Nat) : State := placeTableWord s nbits w

end Sys2Proof.Machine
end

