-- ==== Sys2Proof/Safety.lean ====
section
/-! DEFINITION. What counts as a safe state and a legal output of LSF, in the terms the statements use. -/

namespace Sys2Proof.Machine

/-- The states a run can be in. While a session is live and the framer is in DATA, a message type is latched
(10_state.md R22: "never `none`"); the timestamp has TS_BITS bits (R27). -/
abbrev State.Inv (s : State) : Prop :=
  (s.live = true → s.fstate = .data → s.msgType ≠ none) ∧
  fitsBits s.params.tsBits s.lastHeartbeatTimestampMillis = true

/-- One of the five command frames (30_encoding.md R83), byte for byte. -/
def IsCommandFrame (b : Buffer) : Prop :=
  b = frameHeartbeat ∨ b = frameTare ∨ (∃ c, b = frameTimercmd c) ∨ b = frameIdentify ∨ b = frameNotify

/-- The length of an application payload by the type's shape: 0 to 254 bytes for LP, 1 for FX, 0 for NL
(30_encoding.md R72). -/
def payloadFits (t : MsgType) (payload : Buffer) : Prop :=
  match t.shape with
  | .lp => payload.length ≤ 254
  | .fx => payload.length = 1
  | .nl => payload.length = 0

/-- What LSF may put out: command frames only (R83), messages with a payload their shape allows (R72), the one
heartbeat request (R193), any error (R210), a cancellation (R182). -/
def OutEvent.Legal : OutEvent → Prop
  | .err _ => True
  | .dispatch t payload => payloadFits t payload
  | .tx b => IsCommandFrame b
  | .scheduleHeartbeat ms => ms = 4000
  | .cancelHeartbeat => True

/-- Every event put out so far is legal. -/
def State.OutputsLegal (s : State) : Prop := ∀ e ∈ s.out, OutEvent.Legal e

/-- MAX_PAYLOAD takes the frame the handler of a message of type `t` sends in `s`: 15 bytes for INFO, 9 for a STATUS not yet
registered, none for the others (44_session.md R184, R185; log 9). -/
abbrev handlerFits (t : MsgType) (s : State) : Prop :=
  (t = .info → within s.params.maxPayload 15 = true) ∧
  (t = .status → s.notificationRegistered = false → within s.params.maxPayload 9 = true)

/-- The instructions that open or end a session (44_session.md R181, R182). -/
def isLifecycle : Instr → Bool
  | .connect | .disconnect => true
  | .mtSystem _ | .mtTare _ | .mtInfo _ | .mtStatus _ | .mtIdentify _ | .mtEvent _ | .mtTimer _ => false
  | .evWeight .. | .evBattery _ | .evTimer .. | .evKey _ | .evAck .. => false
  | .fHeartbeat | .fTare | .fTimercmd _ | .fIdentify | .fNotify => false
  | .feed _ | .cksum _ | .build .. | .wrap _ | .heartbeat _ | .tare | .timercmd _ | .identify | .notify => false

/-- The instructions that feed chunks to the RX framer: FEED, the seven frames, and the five records, each of which
arrives in a frame (log 2). -/
def isFeeding : Instr → Bool
  | .feed _ => true
  | .mtSystem _ | .mtTare _ | .mtInfo _ | .mtStatus _ | .mtIdentify _ | .mtEvent _ | .mtTimer _ => true
  | .evWeight .. | .evBattery _ | .evTimer .. | .evKey _ | .evAck .. => true
  | .fHeartbeat | .fTare | .fTimercmd _ | .fIdentify | .fNotify => false
  | .connect | .disconnect | .cksum _ | .build .. | .wrap _ | .heartbeat _ | .tare | .timercmd _ | .identify
  | .notify => false

/-- Instructions run one after the other, stopping at the first stop. -/
def execAll : List Instr → State → Host.Outcome State Fault Refusal
  | [], s => .next s
  | i :: rest, s => andThen (exec i s) (execAll rest)

/-- The sum of the bytes of `p` at the indices `i` with `i % 2 = parity`, as an unbounded natural (R160, R162). -/
def laneSum (parity : Nat) (p : Buffer) : Nat :=
  (((List.range p.length).filter (fun i => i % 2 = parity)).map (fun i => (p.getD i 0).toNat)).sum

end Sys2Proof.Machine
end

