-- ==== Sys2Proof/Certificates/Slice0/Obligations.lean ====
section
/-! DEFINITION. The statements about LSF for the provers, in the order of spec/: encoding, life cycle, FEED, the seven frames,
the event decoder, the checksum and the builder, the commands, the machine as a whole.

Shared forms. `s` is any state. "The header fits" is `within s.params.maxChunk 3`: with R6's default (MAX_CHUNK unbounded)
every such hypothesis holds of every chunk; so it is with `within s.params.maxPayload n`, "the frame's body of n bytes fits" (log 9). A conclusion `exec i s = .next { s with … }` says the instruction completes,
what it writes, and that it leaves every other field of State as it was. There is no memory to frame (10_state.md R36). -/

open Sys2Proof Sys2Proof.Machine

/-! ### Encoding -/

/-- Decoding the encoding of any well-formed instruction gives it back, with every operand (30_encoding.md, formats HDR,
EVT, TXF, OP). The layout of an operation's operand bytes is the model's (log 4). -/
def Obligations.DecodeOfEncodeIsTheInstruction : Prop :=
  ∀ i : Instr, i.WellFormed → decode (encode i) = .ok i

/-- One word of each format. The codes and frame bytes are those of 30_encoding.md R71, R76, R83, R87. That a frame's header and data
chunk are one delivery is log 3; that FEED's bytes are its opsel and then its chunk is the model's layout, log 4 (DESIGN
CHOICE). -/
def Obligations.WordsOfTheSpecDecode : Prop :=
  decode ⟨.hdr, [0xEF, 0xDD, 0x0C, 0x03, 0x06, 0x64, 0x00, 0x00]⟩ = .ok (.mtEvent [0x03, 0x06, 0x64, 0x00, 0x00]) ∧
  decode ⟨.evt, [0x05, 0x10, 0x00, 0x00, 0x00, 0x02, 0x00]⟩ = .ok (.evWeight 0x10 0 0 0 2 0) ∧
  decode ⟨.txf, [0xEF, 0xDD, 0x04, 0x00, 0xFF, 0x00, 0xFF]⟩ = .ok (.fTimercmd 0xFF) ∧
  decode ⟨.op, [0x02, 0xEF, 0xDD, 0x0C]⟩ = .ok (.feed [0xEF, 0xDD, 0x0C])

/-- 30_encoding.md R87: each select code is read as its operation, and codes 11 to 15 are refused by the step. The operand
bytes after the opsel are the model's layout (log 4). -/
def Obligations.OpselSelectsTheOperation : Prop :=
  decode ⟨.op, [0]⟩ = .ok .connect ∧ decode ⟨.op, [1]⟩ = .ok .disconnect ∧
  (∀ c, decode ⟨.op, 2 :: c⟩ = .ok (.feed c)) ∧ (∀ p, decode ⟨.op, 3 :: p⟩ = .ok (.cksum p)) ∧
  (∀ t : MsgType, ∀ p, decode ⟨.op, 4 :: t.code :: p⟩ = .ok (.build t p)) ∧
  (∀ ep : Buffer, ep.length ≤ 254 → decode ⟨.op, 5 :: ep⟩ = .ok (.wrap ep)) ∧
  (∀ n, decode ⟨.op, 6 :: natBytes n⟩ = .ok (.heartbeat n)) ∧ decode ⟨.op, [7]⟩ = .ok .tare ∧
  decode ⟨.op, [8, 0]⟩ = .ok (.timercmd .start) ∧ decode ⟨.op, [8, 1]⟩ = .ok (.timercmd .stop) ∧
  decode ⟨.op, [8, 2]⟩ = .ok (.timercmd .pause) ∧
  decode ⟨.op, [9]⟩ = .ok .identify ∧ decode ⟨.op, [10]⟩ = .ok .notify ∧
  (∀ s : State, ∀ k : Byte, ∀ operands rest, 11 ≤ k.toNat → k.toNat ≤ 15 →
    s.inbox = ⟨.op, k :: operands⟩ :: rest → step s = .refused (.undecodable .reservedOpsel))

/-! ### Life cycle -/

/-- 44_session.md R181, 10_state.md R38: CONNECT is accepted in every state and gives every register its session-start value.
The reset of `fstate` and `msgType`, BATTERY_RESET, TS_RESET and `live` are the spec's decisions D7 to D10, D13 (log 15). -/
def Obligations.ConnectOpensAFreshSession : Prop :=
  ∀ s : State, exec .connect s = .next { s with
    weight := none, timer := none, battery := 0, notificationRegistered := false,
    lastHeartbeatTimestampMillis := 0, fstate := .header, msgType := none, live := true }

/-- 44_session.md R182: DISCONNECT emits CancelHeartbeat and ends the session; every other register may hold anything after
it, so nothing is said of them. -/
def Obligations.DisconnectCancelsAndEndsTheSession : Prop :=
  ∀ s : State, s.live = true → ∃ u, exec .disconnect s = .next u ∧ u.live = false ∧
    u.out = s.out ++ [.cancelHeartbeat] ∧ u.inbox = s.inbox ∧ u.result = s.result ∧ u.params = s.params

/-- 44_session.md R195 (the spec's decision D7): without a session every session operation is refused; CONNECT and the pure
operations are accepted. The frames and records, which run only inside FEED, are refused with it (log 2, log 14). -/
def Obligations.WithoutASessionOnlyConnectAndPureOperationsRun : Prop :=
  ∀ s : State, s.live = false →
    (∀ chunk, exec (.feed chunk) s = .refused .notLive) ∧ (∀ now, exec (.heartbeat now) s = .refused .notLive) ∧
    exec .tare s = .refused .notLive ∧ (∀ cmd, exec (.timercmd cmd) s = .refused .notLive) ∧
    exec .identify s = .refused .notLive ∧ exec .notify s = .refused .notLive ∧
    exec .disconnect s = .refused .notLive ∧
    (∃ u, exec .connect s = .next u) ∧ (∀ p, ∃ u, exec (.cksum p) s = .next u) ∧
    (∀ t p, within s.params.maxPayload p.length = true → ∃ u, exec (.build t p) s = .next u) ∧
    (∀ ep : Buffer, ep.length ≤ 254 → within s.params.maxPayload (ep.length + 1) = true →
      ∃ u, exec (.wrap ep) s = .next u) ∧
    (∀ i, needsSession i = true → exec i s = .refused .notLive)

/-- 60_exceptions.md R226, U16: an input over a finite MAX_CHUNK, MAX_PAYLOAD or TS_BITS is refused; a bound not given
refuses nothing. -/
def Obligations.InputsOverAFiniteBoundAreRefused : Prop :=
  ∀ s : State,
    (∀ m chunk, s.live = true → s.params.maxChunk = some m → m < chunk.length →
      exec (.feed chunk) s = .refused .chunkTooLong) ∧
    (∀ m t p, s.params.maxPayload = some m → m < p.length → exec (.build t p) s = .refused .payloadTooLong) ∧
    (∀ (m : Nat) (ep : Buffer), ep.length ≤ 254 → s.params.maxPayload = some m → m < ep.length + 1 →
      exec (.wrap ep) s = .refused .payloadTooLong) ∧
    (∀ w now, s.live = true → s.params.tsBits = some w → 2 ^ w ≤ now →
      exec (.heartbeat now) s = .refused .nowTooWide)

/-! ### FEED in HEADER state -/

/-- 41_frame_decoder.md R101. -/
def Obligations.HeaderChunkOfAnotherLengthIsInvalidHeader : Prop :=
  ∀ (s : State) (chunk : Buffer), s.live = true → s.fstate = .header →
    within s.params.maxChunk chunk.length = true → chunk.length ≠ 3 →
    exec (.feed chunk) s = .next { s with out := s.out ++ [.err .invalidHeader] }

/-- 41_frame_decoder.md R102: the type byte is not looked at. -/
def Obligations.HeaderChunkWithWrongMagicIsInvalidHeader : Prop :=
  ∀ (s : State) (h1 h2 t : Byte), s.live = true → s.fstate = .header → within s.params.maxChunk 3 = true →
    (h1 ≠ 0xEF ∨ h2 ≠ 0xDD) →
    exec (.feed [h1, h2, t]) s = .next { s with out := s.out ++ [.err .invalidHeader] }

/-- 41_frame_decoder.md R103. -/
def Obligations.HeaderChunkOfUnknownTypeIsDropped : Prop :=
  ∀ (s : State) (t : Byte), s.live = true → s.fstate = .header → within s.params.maxChunk 3 = true →
    t ∉ [0x00, 0x04, 0x07, 0x08, 0x0B, 0x0C, 0x0D] →
    exec (.feed [0xEF, 0xDD, t]) s = .next { s with out := s.out ++ [.err .unknownMessageType] }

/-- 41_frame_decoder.md R104 with the codes of 30_encoding.md R73: the type is latched, nothing is emitted. -/
def Obligations.GoodHeaderChunkLatchesItsType : Prop :=
  ∀ (s : State) (b : Byte) (t : MsgType), s.live = true → s.fstate = .header → within s.params.maxChunk 3 = true →
    (b, t) ∈ [((0x00 : Byte), MsgType.system), (0x04, .tare), (0x07, .info), (0x08, .status), (0x0B, .identify),
      (0x0C, .event), (0x0D, .timer)] →
    exec (.feed [0xEF, 0xDD, b]) s = .next { s with msgType := some t, fstate := .data }

/-! ### FEED in DATA state -/

/-- 41_frame_decoder.md R105, R106: a data chunk shorter than `L + 2` (and the empty chunk of a length-prefixed type, the spec's
decision D14; no wrap at 256, D15) raises InvalidDataLength and returns to HEADER; nothing else changes. -/
def Obligations.DataChunkShorterThanDeclaredAborts : Prop :=
  ∀ (s : State) (t : MsgType) (chunk : Buffer), s.live = true → s.fstate = .data → s.msgType = some t →
    within s.params.maxChunk chunk.length = true →
    (t ∈ [MsgType.status, .event, .info] ∧
        (chunk = [] ∨ ∃ b rest, chunk = b :: rest ∧ chunk.length < max b.toNat 1 + 2) ∨
      t = .system ∧ chunk.length < 4 ∨
      t ∈ [MsgType.tare, .identify, .timer] ∧ chunk.length < 2) →
    exec (.feed chunk) s = .next { s with fstate := .header, out := s.out ++ [.err .invalidDataLength] }

/-- 41_frame_decoder.md R100, R106, R108: whatever the data chunk holds, FEED completes and the framer is in HEADER; the latched
type, the stamp, the session and what lies outside the registers stay; events are only appended. MAX_PAYLOAD takes the frame
the type's handler sends; where it does not, see `SessionFramesOverMaxPayloadAreRefused`. -/
def Obligations.EveryDataChunkReturnsToHeader : Prop :=
  ∀ (s : State) (t : MsgType) (chunk : Buffer), s.live = true → s.fstate = .data → s.msgType = some t →
    within s.params.maxChunk chunk.length = true → handlerFits t s →
    ∃ u evs, exec (.feed chunk) s = .next u ∧ u.fstate = .header ∧ u.msgType = some t ∧ u.live = true ∧
      u.lastHeartbeatTimestampMillis = s.lastHeartbeatTimestampMillis ∧ u.out = s.out ++ evs ∧ evs ≠ [] ∧
      u.inbox = s.inbox ∧ u.result = s.result ∧ u.params = s.params ∧ u.draws = s.draws

/-- 41_frame_decoder.md R110 (the document directs it, D26) and R109: with the bytes up to index `L` fixed, any two or more bytes
after them give the same outcome, which is a next state where MAX_PAYLOAD takes the frame the type's handler sends. -/
def Obligations.TrailingBytesAreNeverRead : Prop :=
  ∀ (s : State) (t : MsgType) (kept x y : Buffer), s.live = true → s.fstate = .data → s.msgType = some t →
    within s.params.maxChunk (kept ++ x).length = true → within s.params.maxChunk (kept ++ y).length = true →
    2 ≤ x.length → 2 ≤ y.length →
    (t ∈ [MsgType.status, .event, .info] ∧ (∃ b rest, kept = b :: rest ∧ kept.length = max b.toNat 1) ∨
      t = .system ∧ kept.length = 2 ∨ t ∈ [MsgType.tare, .identify, .timer] ∧ kept = []) →
    exec (.feed (kept ++ x)) s = exec (.feed (kept ++ y)) s ∧
    (handlerFits t s → ∃ u, exec (.feed (kept ++ x)) s = .next u)

/-- 41_frame_decoder.md R120, both quoted properties: header validation, and the zero length byte. -/
def Obligations.HeaderValidationAndZeroLengthByte : Prop :=
  (∀ (s : State) (chunk : Buffer), s.live = true → s.fstate = .header →
    within s.params.maxChunk chunk.length = true →
    (chunk.length ≠ 3 ∨ chunk.take 2 ≠ [0xEF, 0xDD]) →
    ∃ u evs, exec (.feed chunk) s = .next u ∧ u.fstate = .header ∧ u.out = s.out ++ evs ∧
      ∀ t p, OutEvent.dispatch t p ∉ evs) ∧
  (∀ (s : State) (t : MsgType) (rest : Buffer), s.live = true → s.fstate = .data → s.msgType = some t →
    t ∈ [MsgType.status, .event, .info] → within s.params.maxChunk (rest.length + 1) = true →
    exec (.feed (0 :: rest)) s = exec (.feed (1 :: rest)) s ∧
    (handlerFits t s → ∃ u, exec (.feed (0 :: rest)) s = .next u))

/-- 60_exceptions.md R217, R218: a FEED whose whole output is one error changes no register but the framer's state. -/
def Obligations.FramerErrorChangesOnlyTheFramerState : Prop :=
  ∀ (s u : State) (chunk : Buffer) (k : ErrKind), exec (.feed chunk) s = .next u → u.out = s.out ++ [.err k] →
    u = { s with fstate := .header, out := s.out ++ [.err k] } ∧
    (k = .invalidHeader ∨ k = .unknownMessageType ∨ k = .invalidDataLength)

/-- 10_state.md R22 says a type is latched in DATA. The one fault of the model (log 11) is raised exactly where that fails. -/
def Obligations.FeedFaultsExactlyWithoutALatchedType : Prop :=
  ∀ (s : State) (chunk : Buffer) (r : Fault), exec (.feed chunk) s = .fault r ↔
    r = .noLatchedType ∧ s.live = true ∧ within s.params.maxChunk chunk.length = true ∧ s.fstate = .data ∧
      s.msgType = none

/-- 70_reset_and_hazards.md R244 (b): a header chunk that arrives in DATA state. That a message without a length has the empty payload
is the spec's decision D16 (log 15). -/
def Obligations.HeaderChunkArrivingInDataState : Prop :=
  ∀ (s : State) (t : MsgType) (b : Byte), s.live = true → s.fstate = .data → s.msgType = some t →
    within s.params.maxChunk 3 = true →
    (t ∈ [MsgType.system, .info, .status, .event] → exec (.feed [0xEF, 0xDD, b]) s =
      .next { s with fstate := .header, out := s.out ++ [.err .invalidDataLength] }) ∧
    (t ∈ [MsgType.tare, .identify, .timer] → exec (.feed [0xEF, 0xDD, b]) s =
      .next { s with fstate := .header, out := s.out ++ [.dispatch t []] })

/-! ### The seven frames -/

/-- 30_encoding.md R88: a frame is the two operations FEED EF DD t and FEED d, in every state. -/
def Obligations.FrameIsItsTwoFeeds : Prop :=
  ∀ (s : State) (d : Buffer) (i : Instr) (b : Byte),
    (i, b) ∈ [(Instr.mtSystem d, (0x00 : Byte)), (.mtTare d, 0x04), (.mtInfo d, 0x07), (.mtStatus d, 0x08),
      (.mtIdentify d, 0x0B), (.mtEvent d, 0x0C), (.mtTimer d, 0x0D)] →
    (∀ s1, exec (.feed [0xEF, 0xDD, b]) s = .next s1 → exec i s = exec (.feed d) s1) ∧
    (∀ r, exec (.feed [0xEF, 0xDD, b]) s = .fault r → exec i s = .fault r) ∧
    (∀ r, exec (.feed [0xEF, 0xDD, b]) s = .refused r → exec i s = .refused r)

/-- 41_frame_decoder.md R112 (the one-byte payload is kept as the document writes it, C5). -/
def Obligations.SystemFrameForwardsOneByte : Prop :=
  ∀ (s : State) (d : Buffer), s.live = true → s.fstate = .header → within s.params.maxChunk 3 = true →
    within s.params.maxChunk d.length = true →
    (∀ b rest, d = b :: rest → 4 ≤ d.length → exec (.mtSystem d) s =
      .next { s with msgType := some .system, out := s.out ++ [.dispatch .system [b]] }) ∧
    (d.length < 4 → exec (.mtSystem d) s =
      .next { s with msgType := some .system, out := s.out ++ [.err .invalidDataLength] })

/-- 41_frame_decoder.md R107, R113, R116, R118: no byte of the data chunk is read and no register but the framer's is written. That
the payload dispatched is the empty buffer is the spec's decision D16 (log 15). -/
def Obligations.TareIdentifyAndTimerFramesAreIgnored : Prop :=
  ∀ (s : State) (d : Buffer) (i : Instr) (t : MsgType), s.live = true → s.fstate = .header →
    within s.params.maxChunk 3 = true → within s.params.maxChunk d.length = true →
    (i, t) ∈ [(Instr.mtTare d, MsgType.tare), (.mtIdentify d, .identify), (.mtTimer d, .timer)] →
    (2 ≤ d.length → exec i s = .next { s with msgType := some t, out := s.out ++ [.dispatch t []] }) ∧
    (d.length < 2 → exec i s = .next { s with msgType := some t, out := s.out ++ [.err .invalidDataLength] })

/-- 41_frame_decoder.md R105, R106, R114, 44_session.md R184: `battery <- payload[4]`, then the identify frame, then the heartbeat
request. The spec's decisions (log 15): `battery` stays for a payload shorter than 5 bytes (D20); an empty data chunk is
InvalidDataLength (D14); `L + 2` does not wrap at length bytes 254 and 255 (D15). MAX_PAYLOAD takes the identify frame. -/
def Obligations.InfoFrameSetsBatteryIdentifiesAndSchedules : Prop :=
  ∀ (s : State) (b : Byte) (rest : Buffer), s.live = true → s.fstate = .header → within s.params.maxChunk 3 = true →
    within s.params.maxChunk (rest.length + 1) = true →
    (max b.toNat 1 + 2 ≤ rest.length + 1 → within s.params.maxPayload 15 = true →
      ∃ payload, payload = rest.take (max b.toNat 1 - 1) ∧
      exec (.mtInfo (b :: rest)) s = .next { s with
        msgType := some .info
        battery := if 5 ≤ payload.length then payload.getD 4 0 else s.battery
        out := s.out ++ [.dispatch .info payload,
          .tx ([0xEF, 0xDD, 0x0B] ++ List.replicate 15 0x2D ++ [0x68, 0x3B]), .scheduleHeartbeat 4000] }) ∧
    (rest.length + 1 < max b.toNat 1 + 2 → exec (.mtInfo (b :: rest)) s =
      .next { s with msgType := some .info, out := s.out ++ [.err .invalidDataLength] }) ∧
    exec (.mtInfo []) s = .next { s with msgType := some .info, out := s.out ++ [.err .invalidDataLength] }

/-- 41_frame_decoder.md R105, R106, R115, 44_session.md R185: the notification request is sent once per session; the payload is not
read. The spec's decisions (log 15): an empty data chunk is InvalidDataLength (D14); `L + 2` does not wrap at length bytes
254 and 255 (D15). MAX_PAYLOAD takes the 9 bytes of the request where it is sent. -/
def Obligations.StatusFrameRegistersOnce : Prop :=
  ∀ (s : State) (b : Byte) (rest : Buffer), s.live = true → s.fstate = .header → within s.params.maxChunk 3 = true →
    within s.params.maxChunk (rest.length + 1) = true →
    (max b.toNat 1 + 2 ≤ rest.length + 1 → s.notificationRegistered = false → within s.params.maxPayload 9 = true →
      exec (.mtStatus (b :: rest)) s =
      .next { s with
        msgType := some .status, notificationRegistered := true
        out := s.out ++ [.dispatch .status (rest.take (max b.toNat 1 - 1)),
          .tx [0xEF, 0xDD, 0x0C, 0x09, 0x00, 0x01, 0x01, 0x05, 0x02, 0x05, 0x03, 0x04, 0x18, 0x06]] }) ∧
    (max b.toNat 1 + 2 ≤ rest.length + 1 → s.notificationRegistered = true → exec (.mtStatus (b :: rest)) s =
      .next { s with
        msgType := some .status, out := s.out ++ [.dispatch .status (rest.take (max b.toNat 1 - 1))] }) ∧
    (rest.length + 1 < max b.toNat 1 + 2 → exec (.mtStatus (b :: rest)) s =
      .next { s with msgType := some .status, out := s.out ++ [.err .invalidDataLength] }) ∧
    exec (.mtStatus []) s = .next { s with msgType := some .status, out := s.out ++ [.err .invalidDataLength] }

/-- 41_frame_decoder.md R105, R106, R117: Dispatch, then the event decoder over the whole payload, then HEADER. The spec's decisions
(log 15): an empty data chunk is InvalidDataLength (D14); `L + 2` does not wrap at length bytes 254 and 255 (D15). -/
def Obligations.EventFrameRunsTheEventDecoder : Prop :=
  ∀ (s : State) (b : Byte) (rest : Buffer), s.live = true → s.fstate = .header → within s.params.maxChunk 3 = true →
    within s.params.maxChunk (rest.length + 1) = true →
    (max b.toNat 1 + 2 ≤ rest.length + 1 → ∃ payload, payload = rest.take (max b.toNat 1 - 1) ∧
      exec (.mtEvent (b :: rest)) s = .next { parseSequence payload { s with
        msgType := some .event, out := s.out ++ [.dispatch .event payload] } with fstate := .header }) ∧
    (rest.length + 1 < max b.toNat 1 + 2 → exec (.mtEvent (b :: rest)) s =
      .next { s with msgType := some .event, out := s.out ++ [.err .invalidDataLength] }) ∧
    exec (.mtEvent []) s = .next { s with msgType := some .event, out := s.out ++ [.err .invalidDataLength] }

/-! ### The event decoder

A record's instruction is the record in an MT_EVENT frame of its own (log 2, DESIGN CHOICE), so that it runs only inside
FEED (30_encoding.md R87). What the frame adds to the record's effect is `msgType` and the Dispatch. -/

/-- 42_event_codec.md R135: the little-endian magnitude, the unit code (above 4: exponent 0), the sign bit; `body[3]` is not read. The
frame around the record is log 2. -/
def Obligations.WeightRecordSetsTheTriple : Prop :=
  ∀ (s : State) (b0 b1 b2 b3 b4 b5 : Byte), s.live = true → s.fstate = .header →
    within s.params.maxChunk 10 = true → ∃ w : Weight,
    exec (.evWeight b0 b1 b2 b3 b4 b5) s = .next { s with
      weight := some w, msgType := some .event, out := s.out ++ [.dispatch .event [0x05, b0, b1, b2, b3, b4, b5]] } ∧
    w.mag.toNat = b0.toNat + 256 * b1.toNat + 65536 * b2.toNat ∧
    w.exp.val = (if b4.toNat ≤ 4 then b4.toNat else 0) ∧ (w.neg = true ↔ b5 &&& 0x02 ≠ 0)

/-- 42_event_codec.md R140: the value of the decoded weight is the magnitude over the divisor the unit code selects, negated if the
sign bit is set. The frame around the record is log 2. -/
def Obligations.WeightValueIsScaledAndSigned : Prop :=
  ∀ (s : State) (b0 b1 b2 b3 b4 b5 : Byte), s.live = true → s.fstate = .header →
    within s.params.maxChunk 10 = true → ∃ u w, exec (.evWeight b0 b1 b2 b3 b4 b5) s = .next u ∧
    readWeight u = some w ∧
    weightValue w = (if b5 &&& 0x02 ≠ 0 then -1 else 1) *
      (((b0.toNat + 256 * b1.toNat + 65536 * b2.toNat : Nat) : Rat) /
        (if b4 = 1 then 10 else if b4 = 2 then 100 else if b4 = 3 then 1000 else if b4 = 4 then 10000 else 1))

/-- 42_event_codec.md R136. The frame around the record is log 2. -/
def Obligations.BatteryRecordIsStoredVerbatim : Prop :=
  ∀ (s : State) (level : Byte), s.live = true → s.fstate = .header → within s.params.maxChunk 5 = true →
    exec (.evBattery level) s = .next { s with
      battery := level, msgType := some .event, out := s.out ++ [.dispatch .event [0x06, level]] }

/-- 42_event_codec.md R137. The frame around the record is log 2. -/
def Obligations.TimerRecordIsStoredAsReceived : Prop :=
  ∀ (s : State) (minutes seconds millis : Byte), s.live = true → s.fstate = .header →
    within s.params.maxChunk 7 = true →
    exec (.evTimer minutes seconds millis) s = .next { s with
      timer := some ⟨minutes, seconds, millis⟩, msgType := some .event
      out := s.out ++ [.dispatch .event [0x07, minutes, seconds, millis]] }

/-- 42_event_codec.md R138, R139: the record writes no data register and sends nothing; in a payload it is consumed (2 and 3 bytes)
and decoding goes on. The frame around the record, whose are `msgType` and the Dispatch, is log 2. -/
def Obligations.KeyAndAckRecordsAreDiscarded : Prop :=
  ∀ (s : State) (v v0 v1 : Byte) (rest : Buffer), s.live = true → s.fstate = .header →
    within s.params.maxChunk 6 = true →
    exec (.evKey v) s = .next { s with msgType := some .event, out := s.out ++ [.dispatch .event [0x08, v]] } ∧
    exec (.evAck v0 v1) s = .next { s with
      msgType := some .event, out := s.out ++ [.dispatch .event [0x0B, v0, v1]] } ∧
    parseSequence (0x08 :: v :: rest) s = parseSequence rest s ∧
    parseSequence (0x0B :: v0 :: v1 :: rest) s = parseSequence rest s

/-- 42_event_codec.md R130, R131, R134: a record at the front of the remaining payload has its effect, and the loop goes on after
exactly its bytes (the step by the fixed record length is the spec's decision D18, log 15); an empty rest ends it. The
effect is the one the record's instruction has beside its frame's `msgType` and Dispatch (log 2). -/
def Obligations.RecordsAreAppliedInPayloadOrder : Prop :=
  ∀ (s : State) (r : EventRecord) (rest : Buffer),
    parseSequence (r.bytes ++ rest) s = parseSequence rest (applyRecord r s) ∧ parseSequence [] s = s ∧
    (s.live = true → s.fstate = .header → within s.params.maxChunk (r.bytes.length + 3) = true →
      exec r.toInstr s = .next { applyRecord r s with
        msgType := some .event, out := s.out ++ [.dispatch .event r.bytes] })

/-- 42_event_codec.md R130, R132, R133, R134, R141: good records, then a record that fails, then anything. The frame ends normally in
HEADER; the good records stay applied; the failing record and all bytes after it have no effect but one diagnostic Err. The
spec's decisions (log 15): the step over a good record by its fixed length (D18), the one Err (D19). -/
def Obligations.EventFrameStopsAtTheFirstBadRecord : Prop :=
  ∀ (s : State) (rs : List EventRecord) (code : Byte) (tail x : Buffer) (k : ErrKind), s.live = true →
    s.fstate = .header → within s.params.maxChunk 3 = true → 2 ≤ x.length →
    (code ∉ [0x05, 0x06, 0x07, 0x08, 0x0B] ∧ k = .unknownEventCode ∨
      (∃ n, (code, n) ∈ [((0x05 : Byte), 6), (0x06, 1), (0x07, 3), (0x08, 1), (0x0B, 2)] ∧ tail.length < n) ∧
        k = .invalidEventLength) →
    ∀ payload, payload = rs.flatMap EventRecord.bytes ++ code :: tail → payload.length ≤ 254 →
    within s.params.maxChunk (payload.length + 1 + x.length) = true →
    exec (.mtEvent (BitVec.ofNat 8 (payload.length + 1) :: payload ++ x)) s =
      .next { rs.foldl (fun u r => applyRecord r u) s with
        msgType := some .event, out := s.out ++ [.dispatch .event payload, .err k] }

/-- 42_event_codec.md R141, R142, 10_state.md R33, R39: on any payload the event decoder writes at most `weight`, `battery` and
`timer`, emits at most one error and nothing else, and clears no presence bit. -/
def Obligations.EventDecoderWritesOnlyItsRegisters : Prop :=
  ∀ (s : State) (payload : Buffer), ∃ w b tm evs,
    parseSequence payload s = { s with weight := w, battery := b, timer := tm, out := s.out ++ evs } ∧
    (evs = [] ∨ evs = [.err .unknownEventCode] ∨ evs = [.err .invalidEventLength]) ∧
    (s.weight.isSome → w.isSome) ∧ (s.timer.isSome → tm.isSome)

/-! ### The checksum generator and the frame builder -/

/-- 43_message_encoder.md R160: the two lane sums mod 256, for a buffer of any length; nothing else changes. -/
def Obligations.ChecksumSumsEvenAndOddIndices : Prop :=
  ∀ (s : State) (p : Buffer), ∃ c1 c2 : Byte,
    exec (.cksum p) s = .next { s with result := some (.checksum c1 c2) } ∧
    c1.toNat = laneSum 0 p % 256 ∧ c2.toNat = laneSum 1 p % 256

/-- 43_message_encoder.md R161: the streaming form computes what CKSUM answers. -/
def Obligations.StreamingChecksumIsTheChecksum : Prop :=
  ∀ (s : State) (p : Buffer),
    exec (.cksum p) s = .next { s with result := some (.checksum (streamChecksum p).1 (streamChecksum p).2) }

/-- 43_message_encoder.md R166: header, type, body, and the checksum of the body alone. -/
def Obligations.BuiltFrameEndsInTheChecksumOfItsBody : Prop :=
  ∀ (s : State) (t : MsgType) (p : Buffer), within s.params.maxPayload p.length = true → ∃ c1 c2 : Byte,
    exec (.build t p) s =
      .next { s with result := some (.buffer ([0xEF, 0xDD, t.code] ++ p ++ [c1, c2])) } ∧
    c1.toNat = laneSum 0 p % 256 ∧ c2.toNat = laneSum 1 p % 256

/-- 43_message_encoder.md R164: WRAP is BUILD of the length byte and the operand as an MT_EVENT body; more than 254 bytes are refused
(the spec's decision D22). -/
def Obligations.WrapBuildsTheLengthPrefixedBody : Prop :=
  ∀ (s : State) (ep : Buffer),
    (ep.length ≤ 254 → within s.params.maxPayload (ep.length + 1) = true → ∃ n : Byte, n.toNat = ep.length + 1 ∧
      exec (.wrap ep) s = exec (.build .event (n :: ep)) s ∧ ∃ f, exec (.wrap ep) s =
        .next { s with result := some (.buffer f) } ∧ f.length = ep.length + 6) ∧
    (254 < ep.length → exec (.wrap ep) s = .refused .wrapTooLong)

/-- 43_message_encoder.md R165: the frame WRAP builds, split after its third byte and fed back, dispatches its operand exactly and is
decoded as events. -/
def Obligations.WrapFedBackDispatchesItsOperand : Prop :=
  ∀ (s : State) (ep : Buffer), s.live = true → s.fstate = .header → ep.length ≤ 254 →
    within s.params.maxPayload (ep.length + 1) = true → within s.params.maxChunk (ep.length + 3) = true →
    ∃ f s1 s2, exec (.wrap ep) s = .next { s with result := some (.buffer f) } ∧
      exec (.feed (f.take 3)) s = .next s1 ∧ exec (.feed (f.drop 3)) s1 = .next s2 ∧
      s2 = { parseSequence ep { s with
        msgType := some .event, out := s.out ++ [.dispatch .event ep] } with fstate := .header }

/-! ### Commands -/

/-- 44_session.md R188: a comparison of naturals; sent exactly when `now >= last + 3000`. -/
def Obligations.HeartbeatIsRateLimited : Prop :=
  ∀ (s : State) (now : Nat), s.live = true → fitsBits s.params.tsBits now = true →
    (s.lastHeartbeatTimestampMillis + 3000 > now → exec (.heartbeat now) s = .next s) ∧
    (s.lastHeartbeatTimestampMillis + 3000 ≤ now → within s.params.maxPayload 2 = true → exec (.heartbeat now) s = .next { s with
      lastHeartbeatTimestampMillis := now, out := s.out ++ [.tx [0xEF, 0xDD, 0x00, 0x02, 0x00, 0x02, 0x00]] })

/-- 44_session.md R189, R191: the frames, and no register written. -/
def Obligations.TareAndIdentifySendTheirFrames : Prop :=
  ∀ s : State, s.live = true →
    (within s.params.maxPayload 1 = true →
      exec .tare s = .next { s with out := s.out ++ [.tx [0xEF, 0xDD, 0x04, 0x00, 0x00, 0x00]] }) ∧
    (within s.params.maxPayload 15 = true → exec .identify s = .next { s with
      out := s.out ++ [.tx ([0xEF, 0xDD, 0x0B] ++ List.replicate 15 0x2D ++ [0x68, 0x3B])] })

/-- 44_session.md R190: type byte 0x04 (the document directs it, D25), the open code byte of the command twice (D24: any value). -/
def Obligations.TimerCommandGoesOutAsTare : Prop :=
  ∀ (s : State) (cmd : TimerCmd) (c : Byte), s.live = true → within s.params.maxPayload 2 = true →
    (cmd, c) ∈ [(TimerCmd.start, s.params.cmdStart), (.stop, s.params.cmdStop), (.pause, s.params.cmdPause)] →
    exec (.timercmd cmd) s = .next { s with out := s.out ++ [.tx [0xEF, 0xDD, 0x04, 0x00, c, 0x00, c]] }

/-- 44_session.md R192, 20_memory.md R57: the frame is sent and the flag set. That the flag is set on every call is the spec's
decision D29 (log 15), from a `send` that never fails. -/
def Obligations.NotifySendsAndRegisters : Prop :=
  ∀ s : State, s.live = true → within s.params.maxPayload 9 = true → exec .notify s = .next { s with
    notificationRegistered := true
    out := s.out ++ [.tx [0xEF, 0xDD, 0x0C, 0x09, 0x00, 0x01, 0x01, 0x05, 0x02, 0x05, 0x03, 0x04, 0x18, 0x06]] }

/-- 30_encoding.md R83: the five TXF rows hand exactly their frames to the Transport, with what the session writes when it sends
them: F_NOTIFY sets the flag (70_reset_and_hazards.md R250), F_HEARTBEAT leaves its stamp (10_state.md R27) at a time the row
does not state, any that the rate limit allows, and is refused where none has TS_BITS bits. That a row runs by itself, and
the free time, are the model's reading (log 14). -/
def Obligations.CommandFramesAreHandedToTheTransport : Prop :=
  ∀ (s : State) (c : Byte), s.live = true →
    exec .fTare s = exec .tare s ∧ exec .fIdentify s = exec .identify s ∧ exec .fNotify s = exec .notify s ∧
    (within s.params.maxPayload 1 = true →
      exec .fTare s = .next { s with out := s.out ++ [.tx [0xEF, 0xDD, 0x04, 0x00, 0x00, 0x00]] }) ∧
    (within s.params.maxPayload 2 = true → fitsBits s.params.tsBits (s.lastHeartbeatTimestampMillis + 3000) = true →
      ∃ now, s.lastHeartbeatTimestampMillis + 3000 ≤ now ∧ fitsBits s.params.tsBits now = true ∧
        exec .fHeartbeat s = .next { s with
          lastHeartbeatTimestampMillis := now, draws := s.draws + 1
          out := s.out ++ [.tx [0xEF, 0xDD, 0x00, 0x02, 0x00, 0x02, 0x00]] }) ∧
    (fitsBits s.params.tsBits (s.lastHeartbeatTimestampMillis + 3000) = false →
      exec .fHeartbeat s = .refused .nowTooWide) ∧
    (within s.params.maxPayload 2 = true →
      exec (.fTimercmd c) s = .next { s with out := s.out ++ [.tx [0xEF, 0xDD, 0x04, 0x00, c, 0x00, c]] }) ∧
    (within s.params.maxPayload 15 = true → exec .fIdentify s = .next { s with
      out := s.out ++ [.tx ([0xEF, 0xDD, 0x0B] ++ List.replicate 15 0x2D ++ [0x68, 0x3B])] }) ∧
    (within s.params.maxPayload 9 = true → exec .fNotify s = .next { s with
      notificationRegistered := true
      out := s.out ++ [.tx [0xEF, 0xDD, 0x0C, 0x09, 0x00, 0x01, 0x01, 0x05, 0x02, 0x05, 0x03, 0x04, 0x18, 0x06]] })

/-- 44_session.md R188 over a session: two heartbeats that are sent, with any instructions but CONNECT and DISCONNECT between them,
carry times at least 3000 apart. For an F_HEARTBEAT between them the stamp rests on log 14 (its free time). -/
def Obligations.SentHeartbeatsAreThreeSecondsApart : Prop :=
  ∀ (s s1 s2 s3 : State) (a b : Nat) (is : List Instr),
    exec (.heartbeat a) s = .next s1 → s1.out ≠ s.out → (∀ i ∈ is, isLifecycle i = false) →
    execAll is s1 = .next s2 → exec (.heartbeat b) s2 = .next s3 → s3.out ≠ s2.out → a + 3000 ≤ b

/-! ### The whole machine -/

/-- 10_state.md R20, R39: no instruction writes a register it is not named for; nothing changes the parameters or the pending
deliveries; output is only appended. An EVT row writes what its record writes, and the framer's registers (log 2); F_NOTIFY
and F_HEARTBEAT write what NOTIFY and HEARTBEAT write (log 14). -/
def Obligations.RegistersHaveOnlyTheirWriters : Prop :=
  ∀ (i : Instr) (s u : State), exec i s = .next u →
    (u.live ≠ s.live → isLifecycle i = true) ∧
    (u.fstate ≠ s.fstate ∨ u.msgType ≠ s.msgType → isFeeding i = true ∨ isLifecycle i = true) ∧
    (u.weight ≠ s.weight → isLifecycle i = true ∨ (∃ c, i = .feed c) ∨ (∃ d, i = .mtEvent d) ∨
      ∃ b0 b1 b2 b3 b4 b5, i = .evWeight b0 b1 b2 b3 b4 b5) ∧
    (u.battery ≠ s.battery → isLifecycle i = true ∨ (∃ c, i = .feed c) ∨ (∃ d, i = .mtEvent d) ∨
      (∃ d, i = .mtInfo d) ∨ ∃ level, i = .evBattery level) ∧
    (u.timer ≠ s.timer → isLifecycle i = true ∨ (∃ c, i = .feed c) ∨ (∃ d, i = .mtEvent d) ∨
      ∃ a b c, i = .evTimer a b c) ∧
    (u.notificationRegistered ≠ s.notificationRegistered → isLifecycle i = true ∨ (∃ c, i = .feed c) ∨
      (∃ d, i = .mtStatus d) ∨ i = .notify ∨ i = .fNotify) ∧
    (u.lastHeartbeatTimestampMillis ≠ s.lastHeartbeatTimestampMillis →
      isLifecycle i = true ∨ i = .fHeartbeat ∨ ∃ now, i = .heartbeat now) ∧
    (u.result ≠ s.result → (∃ p, i = .cksum p) ∨ (∃ t p, i = .build t p) ∨ ∃ ep, i = .wrap ep) ∧
    (u.draws ≠ s.draws → i = .disconnect ∨ i = .fHeartbeat) ∧ u.params = s.params ∧ u.inbox = s.inbox ∧ ∃ evs, u.out = s.out ++ evs

/-- Within a session the registration flag and the presence bits are never cleared (10_state.md R26, R33, 44_session.md R185), the
stamp never goes back (10_state.md R27, 44_session.md R188) and `live` is unchanged (10_state.md R28). For an F_HEARTBEAT in the run
the stamp rests on log 14 (its free time), as F_NOTIFY's flag does; a record in it runs as its frame (log 2). -/
def Obligations.NothingIsClearedWithinASession : Prop :=
  ∀ (is : List Instr) (s u : State), (∀ i ∈ is, isLifecycle i = false) → execAll is s = .next u →
    u.live = s.live ∧ (registeredFlag s = true → registeredFlag u = true) ∧
    (weightPresent s = true → weightPresent u = true) ∧ (timerPresent s = true → timerPresent u = true) ∧
    s.lastHeartbeatTimestampMillis ≤ u.lastHeartbeatTimestampMillis

/-- 20_memory.md R61: a step takes the next delivery and runs exactly the instruction its bytes decode to, on the state without that
delivery. That operations stand in a list is the model's (log 1). -/
def Obligations.StepRunsTheDecodedInstruction : Prop :=
  ∀ (s : State) (d : Delivery) (rest : List Delivery) (i : Instr), s.inbox = d :: rest → decode d = .ok i →
    step s = exec i { s with inbox := rest }

/-- 60_exceptions.md R225: with nothing pending LSF is idle and holds its registers (log 1). -/
def Obligations.StepIsIdleWithNothingPending : Prop :=
  ∀ s : State, s.inbox = [] → step s = .next s

/-- 30_encoding.md R87, R90: nothing the rules decode is refused. That a frame delivery whose header chunk matches no row still runs
both FEEDs is log 3 (DEDUCED). That an event delivery, one record or any other bytes, runs as the payload of an MT_EVENT
frame, and so only inside FEED, is log 2 (DESIGN CHOICE); bytes no payload can hold are refused. -/
def Obligations.UnmatchedDeliveriesRunTheSameRules : Prop :=
  ∀ (s : State) (bytes : Buffer) (rest : List Delivery) (e : DecodeError),
    (s.inbox = ⟨.hdr, bytes⟩ :: rest → decode ⟨.hdr, bytes⟩ = .error e →
      step s = andThen (exec (.feed (bytes.take 3)) { s with inbox := rest }) (exec (.feed (bytes.drop 3)))) ∧
    (s.inbox = ⟨.evt, bytes⟩ :: rest → bytes.length ≤ 254 → ∃ c1 c2,
      step s = exec (.mtEvent (BitVec.ofNat 8 (bytes.length + 1) :: bytes ++ [c1, c2])) { s with inbox := rest }) ∧
    (s.inbox = ⟨.evt, bytes⟩ :: rest → 254 < bytes.length → ∃ r, step s = .refused (.undecodable r))

/-- The invariant holds at power-on. The register values it reads there are the model's (log 6). -/
def Obligations.InvariantHoldsAtPowerOn : Prop :=
  State.reset.Inv ∧ State.reset.OutputsLegal ∧ State.reset.live = false

/-- 10_state.md R22, R27: every step keeps "a type is latched while a live framer is in DATA" and the width of the stamp. -/
def Obligations.StepKeepsTheInvariant : Prop :=
  ∀ s u : State, s.Inv → step s = .next u → u.Inv

/-- 60_exceptions.md R218, R220: none of the error kinds is a fault; from a state that meets the invariant no step faults, whatever is
delivered. -/
def Obligations.StepNeverFaults : Prop :=
  ∀ (s : State) (r : Fault), s.Inv → step s ≠ .fault r

/-- 30_encoding.md R72, R83, 44_session.md R193: every step keeps "LSF has put out nothing but the five command frames, messages
with a payload their shape allows, errors, requests for a heartbeat after 4000 ms, and cancellations". -/
def Obligations.StepKeepsOutputsLegal : Prop :=
  ∀ s u : State, s.OutputsLegal → step s = .next u → u.OutputsLegal

/-! ### The bound on built bodies, and records inside FEED -/

/-- 00_scope.md R6, 43_message_encoder.md R163, 60_exceptions.md R226, 20_memory.md R50: MAX_PAYLOAD bounds the bodies the session
builds too. That the whole operation which needs the frame is refused is the model's reading (log 9, DEDUCED); that a TXF
row builds its frame is log 14. -/
def Obligations.SessionFramesOverMaxPayloadAreRefused : Prop :=
  ∀ (s : State) (m : Nat), s.live = true → s.params.maxPayload = some m →
    (m < 1 → exec .tare s = .refused .payloadTooLong ∧ exec .fTare s = .refused .payloadTooLong) ∧
    (m < 2 → (∀ cmd, exec (.timercmd cmd) s = .refused .payloadTooLong) ∧
      (∀ c, exec (.fTimercmd c) s = .refused .payloadTooLong) ∧
      (fitsBits s.params.tsBits (s.lastHeartbeatTimestampMillis + 3000) = true →
        exec .fHeartbeat s = .refused .payloadTooLong) ∧
      ∀ now, fitsBits s.params.tsBits now = true → s.lastHeartbeatTimestampMillis + 3000 ≤ now →
        exec (.heartbeat now) s = .refused .payloadTooLong) ∧
    (m < 9 → exec .notify s = .refused .payloadTooLong ∧ exec .fNotify s = .refused .payloadTooLong ∧
      ∀ b rest, s.fstate = .data → s.msgType = some .status → s.notificationRegistered = false →
        within s.params.maxChunk (rest.length + 1) = true → max b.toNat 1 + 2 ≤ rest.length + 1 →
        exec (.feed (b :: rest)) s = .refused .payloadTooLong) ∧
    (m < 15 → exec .identify s = .refused .payloadTooLong ∧ exec .fIdentify s = .refused .payloadTooLong ∧
      ∀ b rest, s.fstate = .data → s.msgType = some .info →
        within s.params.maxChunk (rest.length + 1) = true → max b.toNat 1 + 2 ≤ rest.length + 1 →
        exec (.feed (b :: rest)) s = .refused .payloadTooLong)

/-- 30_encoding.md R87: the event decoder runs only inside FEED. A record's instruction is, in every state, FEED of the MT_EVENT
header chunk and FEED of a data chunk with that record as its payload (log 2, DESIGN CHOICE). -/
def Obligations.RecordsRunOnlyInsideFeed : Prop :=
  ∀ (s : State) (r : EventRecord), ∃ n c1 c2 : Byte, n.toNat = r.bytes.length + 1 ∧
    exec r.toInstr s =
      andThen (exec (.feed [0xEF, 0xDD, 0x0C]) s) (exec (.feed (n :: r.bytes ++ [c1, c2])))

/-- 70_reset_and_hazards.md R250, 44_session.md R192: whatever instruction hands the notification request to the Transport, the flag is
set after it; and once it is set, no chunk, frame or record makes LSF send the request again. -/
def Obligations.RegistrationIsAssumedOnceRequested : Prop :=
  ∀ (i : Instr) (s u : State), exec i s = .next u → ∃ evs, u.out = s.out ++ evs ∧
    (.tx [0xEF, 0xDD, 0x0C, 0x09, 0x00, 0x01, 0x01, 0x05, 0x02, 0x05, 0x03, 0x04, 0x18, 0x06] ∈ evs →
      u.notificationRegistered = true ∧ (isFeeding i = true → s.notificationRegistered = false))

/-- 10_state.md R27, 44_session.md R188: whatever instruction hands a heartbeat to the Transport, the stamp after it lies at least
3000 ms above the stamp before it; and no chunk, frame or record does. The time of F_HEARTBEAT is free (log 14). -/
def Obligations.SentHeartbeatsAdvanceTheStamp : Prop :=
  ∀ (i : Instr) (s u : State), exec i s = .next u → ∃ evs, u.out = s.out ++ evs ∧
    (.tx [0xEF, 0xDD, 0x00, 0x02, 0x00, 0x02, 0x00] ∈ evs →
      s.lastHeartbeatTimestampMillis + 3000 ≤ u.lastHeartbeatTimestampMillis ∧
      (i = .fHeartbeat ∨ i = .heartbeat u.lastHeartbeatTimestampMillis))
end

