-- ==== Sys2Proof/Laws/State.lean ====
section
/-! SUPPORT. One lemma per field per named update, so that no later proof unfolds a record update. -/

namespace Sys2Proof.Machine

/-! ### emit, send, answer -/

@[simp] theorem emit_fstate (e : OutEvent) (s : State) : (emit e s).fstate = s.fstate := rfl
@[simp] theorem emit_msgType (e : OutEvent) (s : State) : (emit e s).msgType = s.msgType := rfl
@[simp] theorem emit_weight (e : OutEvent) (s : State) : (emit e s).weight = s.weight := rfl
@[simp] theorem emit_battery (e : OutEvent) (s : State) : (emit e s).battery = s.battery := rfl
@[simp] theorem emit_timer (e : OutEvent) (s : State) : (emit e s).timer = s.timer := rfl
@[simp] theorem emit_notificationRegistered (e : OutEvent) (s : State) : (emit e s).notificationRegistered = s.notificationRegistered := rfl
@[simp] theorem emit_lastHeartbeatTimestampMillis (e : OutEvent) (s : State) : (emit e s).lastHeartbeatTimestampMillis = s.lastHeartbeatTimestampMillis := rfl
@[simp] theorem emit_live (e : OutEvent) (s : State) : (emit e s).live = s.live := rfl
@[simp] theorem emit_inbox (e : OutEvent) (s : State) : (emit e s).inbox = s.inbox := rfl
@[simp] theorem emit_out (e : OutEvent) (s : State) : (emit e s).out = s.out ++ [e] := rfl
@[simp] theorem emit_result (e : OutEvent) (s : State) : (emit e s).result = s.result := rfl
@[simp] theorem emit_params (e : OutEvent) (s : State) : (emit e s).params = s.params := rfl
@[simp] theorem emit_draws (e : OutEvent) (s : State) : (emit e s).draws = s.draws := rfl

@[simp] theorem send_fstate (b : Buffer) (s : State) : (send b s).fstate = s.fstate := rfl
@[simp] theorem send_msgType (b : Buffer) (s : State) : (send b s).msgType = s.msgType := rfl
@[simp] theorem send_weight (b : Buffer) (s : State) : (send b s).weight = s.weight := rfl
@[simp] theorem send_battery (b : Buffer) (s : State) : (send b s).battery = s.battery := rfl
@[simp] theorem send_timer (b : Buffer) (s : State) : (send b s).timer = s.timer := rfl
@[simp] theorem send_notificationRegistered (b : Buffer) (s : State) : (send b s).notificationRegistered = s.notificationRegistered := rfl
@[simp] theorem send_lastHeartbeatTimestampMillis (b : Buffer) (s : State) : (send b s).lastHeartbeatTimestampMillis = s.lastHeartbeatTimestampMillis := rfl
@[simp] theorem send_live (b : Buffer) (s : State) : (send b s).live = s.live := rfl
@[simp] theorem send_inbox (b : Buffer) (s : State) : (send b s).inbox = s.inbox := rfl
@[simp] theorem send_out (b : Buffer) (s : State) : (send b s).out = s.out ++ [.tx b] := rfl
@[simp] theorem send_result (b : Buffer) (s : State) : (send b s).result = s.result := rfl
@[simp] theorem send_params (b : Buffer) (s : State) : (send b s).params = s.params := rfl
@[simp] theorem send_draws (b : Buffer) (s : State) : (send b s).draws = s.draws := rfl

@[simp] theorem answer_fstate (r : Result) (s : State) : (answer r s).fstate = s.fstate := rfl
@[simp] theorem answer_msgType (r : Result) (s : State) : (answer r s).msgType = s.msgType := rfl
@[simp] theorem answer_weight (r : Result) (s : State) : (answer r s).weight = s.weight := rfl
@[simp] theorem answer_battery (r : Result) (s : State) : (answer r s).battery = s.battery := rfl
@[simp] theorem answer_timer (r : Result) (s : State) : (answer r s).timer = s.timer := rfl
@[simp] theorem answer_notificationRegistered (r : Result) (s : State) : (answer r s).notificationRegistered = s.notificationRegistered := rfl
@[simp] theorem answer_lastHeartbeatTimestampMillis (r : Result) (s : State) : (answer r s).lastHeartbeatTimestampMillis = s.lastHeartbeatTimestampMillis := rfl
@[simp] theorem answer_live (r : Result) (s : State) : (answer r s).live = s.live := rfl
@[simp] theorem answer_inbox (r : Result) (s : State) : (answer r s).inbox = s.inbox := rfl
@[simp] theorem answer_out (r : Result) (s : State) : (answer r s).out = s.out := rfl
@[simp] theorem answer_result (r : Result) (s : State) : (answer r s).result = some r := rfl
@[simp] theorem answer_params (r : Result) (s : State) : (answer r s).params = s.params := rfl
@[simp] theorem answer_draws (r : Result) (s : State) : (answer r s).draws = s.draws := rfl

/-! ### the records -/

@[simp] theorem applyWeight_fstate (b0 b1 b2 b4 b5 : Byte) (s : State) : (applyWeight b0 b1 b2 b4 b5 s).fstate = s.fstate := rfl
@[simp] theorem applyWeight_msgType (b0 b1 b2 b4 b5 : Byte) (s : State) : (applyWeight b0 b1 b2 b4 b5 s).msgType = s.msgType := rfl
@[simp] theorem applyWeight_weight (b0 b1 b2 b4 b5 : Byte) (s : State) : (applyWeight b0 b1 b2 b4 b5 s).weight = some (weightOf b0 b1 b2 b4 b5) := rfl
@[simp] theorem applyWeight_battery (b0 b1 b2 b4 b5 : Byte) (s : State) : (applyWeight b0 b1 b2 b4 b5 s).battery = s.battery := rfl
@[simp] theorem applyWeight_timer (b0 b1 b2 b4 b5 : Byte) (s : State) : (applyWeight b0 b1 b2 b4 b5 s).timer = s.timer := rfl
@[simp] theorem applyWeight_notificationRegistered (b0 b1 b2 b4 b5 : Byte) (s : State) : (applyWeight b0 b1 b2 b4 b5 s).notificationRegistered = s.notificationRegistered := rfl
@[simp] theorem applyWeight_lastHeartbeatTimestampMillis (b0 b1 b2 b4 b5 : Byte) (s : State) : (applyWeight b0 b1 b2 b4 b5 s).lastHeartbeatTimestampMillis = s.lastHeartbeatTimestampMillis := rfl
@[simp] theorem applyWeight_live (b0 b1 b2 b4 b5 : Byte) (s : State) : (applyWeight b0 b1 b2 b4 b5 s).live = s.live := rfl
@[simp] theorem applyWeight_inbox (b0 b1 b2 b4 b5 : Byte) (s : State) : (applyWeight b0 b1 b2 b4 b5 s).inbox = s.inbox := rfl
@[simp] theorem applyWeight_out (b0 b1 b2 b4 b5 : Byte) (s : State) : (applyWeight b0 b1 b2 b4 b5 s).out = s.out := rfl
@[simp] theorem applyWeight_result (b0 b1 b2 b4 b5 : Byte) (s : State) : (applyWeight b0 b1 b2 b4 b5 s).result = s.result := rfl
@[simp] theorem applyWeight_params (b0 b1 b2 b4 b5 : Byte) (s : State) : (applyWeight b0 b1 b2 b4 b5 s).params = s.params := rfl
@[simp] theorem applyWeight_draws (b0 b1 b2 b4 b5 : Byte) (s : State) : (applyWeight b0 b1 b2 b4 b5 s).draws = s.draws := rfl

@[simp] theorem applyBattery_fstate (b : Byte) (s : State) : (applyBattery b s).fstate = s.fstate := rfl
@[simp] theorem applyBattery_msgType (b : Byte) (s : State) : (applyBattery b s).msgType = s.msgType := rfl
@[simp] theorem applyBattery_weight (b : Byte) (s : State) : (applyBattery b s).weight = s.weight := rfl
@[simp] theorem applyBattery_battery (b : Byte) (s : State) : (applyBattery b s).battery = b := rfl
@[simp] theorem applyBattery_timer (b : Byte) (s : State) : (applyBattery b s).timer = s.timer := rfl
@[simp] theorem applyBattery_notificationRegistered (b : Byte) (s : State) : (applyBattery b s).notificationRegistered = s.notificationRegistered := rfl
@[simp] theorem applyBattery_lastHeartbeatTimestampMillis (b : Byte) (s : State) : (applyBattery b s).lastHeartbeatTimestampMillis = s.lastHeartbeatTimestampMillis := rfl
@[simp] theorem applyBattery_live (b : Byte) (s : State) : (applyBattery b s).live = s.live := rfl
@[simp] theorem applyBattery_inbox (b : Byte) (s : State) : (applyBattery b s).inbox = s.inbox := rfl
@[simp] theorem applyBattery_out (b : Byte) (s : State) : (applyBattery b s).out = s.out := rfl
@[simp] theorem applyBattery_result (b : Byte) (s : State) : (applyBattery b s).result = s.result := rfl
@[simp] theorem applyBattery_params (b : Byte) (s : State) : (applyBattery b s).params = s.params := rfl
@[simp] theorem applyBattery_draws (b : Byte) (s : State) : (applyBattery b s).draws = s.draws := rfl

@[simp] theorem applyTimer_fstate (a b c : Byte) (s : State) : (applyTimer a b c s).fstate = s.fstate := rfl
@[simp] theorem applyTimer_msgType (a b c : Byte) (s : State) : (applyTimer a b c s).msgType = s.msgType := rfl
@[simp] theorem applyTimer_weight (a b c : Byte) (s : State) : (applyTimer a b c s).weight = s.weight := rfl
@[simp] theorem applyTimer_battery (a b c : Byte) (s : State) : (applyTimer a b c s).battery = s.battery := rfl
@[simp] theorem applyTimer_timer (a b c : Byte) (s : State) : (applyTimer a b c s).timer = some ⟨a, b, c⟩ := rfl
@[simp] theorem applyTimer_notificationRegistered (a b c : Byte) (s : State) : (applyTimer a b c s).notificationRegistered = s.notificationRegistered := rfl
@[simp] theorem applyTimer_lastHeartbeatTimestampMillis (a b c : Byte) (s : State) : (applyTimer a b c s).lastHeartbeatTimestampMillis = s.lastHeartbeatTimestampMillis := rfl
@[simp] theorem applyTimer_live (a b c : Byte) (s : State) : (applyTimer a b c s).live = s.live := rfl
@[simp] theorem applyTimer_inbox (a b c : Byte) (s : State) : (applyTimer a b c s).inbox = s.inbox := rfl
@[simp] theorem applyTimer_out (a b c : Byte) (s : State) : (applyTimer a b c s).out = s.out := rfl
@[simp] theorem applyTimer_result (a b c : Byte) (s : State) : (applyTimer a b c s).result = s.result := rfl
@[simp] theorem applyTimer_params (a b c : Byte) (s : State) : (applyTimer a b c s).params = s.params := rfl
@[simp] theorem applyTimer_draws (a b c : Byte) (s : State) : (applyTimer a b c s).draws = s.draws := rfl

@[simp] theorem applyKey_eq (v : Byte) (s : State) : applyKey v s = s := rfl
@[simp] theorem applyAck_eq (v0 v1 : Byte) (s : State) : applyAck v0 v1 s = s := rfl

/-! ### life cycle -/

@[simp] theorem openSession_fstate (s : State) : (openSession s).fstate = .header := rfl
@[simp] theorem openSession_msgType (s : State) : (openSession s).msgType = none := rfl
@[simp] theorem openSession_weight (s : State) : (openSession s).weight = none := rfl
@[simp] theorem openSession_battery (s : State) : (openSession s).battery = 0 := rfl
@[simp] theorem openSession_timer (s : State) : (openSession s).timer = none := rfl
@[simp] theorem openSession_notificationRegistered (s : State) : (openSession s).notificationRegistered = false := rfl
@[simp] theorem openSession_lastHeartbeatTimestampMillis (s : State) : (openSession s).lastHeartbeatTimestampMillis = 0 := rfl
@[simp] theorem openSession_live (s : State) : (openSession s).live = true := rfl
@[simp] theorem openSession_inbox (s : State) : (openSession s).inbox = s.inbox := rfl
@[simp] theorem openSession_out (s : State) : (openSession s).out = s.out := rfl
@[simp] theorem openSession_result (s : State) : (openSession s).result = s.result := rfl
@[simp] theorem openSession_params (s : State) : (openSession s).params = s.params := rfl
@[simp] theorem openSession_draws (s : State) : (openSession s).draws = s.draws := rfl

@[simp] theorem closeSession_lastHeartbeatTimestampMillis (s : State) : (closeSession s).lastHeartbeatTimestampMillis = keepBits s.params.tsBits (Config.freeTimestamp s.draws) := rfl
@[simp] theorem closeSession_live (s : State) : (closeSession s).live = false := rfl
@[simp] theorem closeSession_inbox (s : State) : (closeSession s).inbox = s.inbox := rfl
@[simp] theorem closeSession_out (s : State) : (closeSession s).out = s.out ++ [.cancelHeartbeat] := rfl
@[simp] theorem closeSession_result (s : State) : (closeSession s).result = s.result := rfl
@[simp] theorem closeSession_params (s : State) : (closeSession s).params = s.params := rfl
@[simp] theorem closeSession_draws (s : State) : (closeSession s).draws = s.draws + 1 := rfl

/-! ### raise: only InvalidDataLength moves `fstate` (R210) -/

@[simp] theorem raise_msgType (k : ErrKind) (s : State) : (raise k s).msgType = s.msgType := by
  cases k <;> rfl
@[simp] theorem raise_weight (k : ErrKind) (s : State) : (raise k s).weight = s.weight := by
  cases k <;> rfl
@[simp] theorem raise_battery (k : ErrKind) (s : State) : (raise k s).battery = s.battery := by
  cases k <;> rfl
@[simp] theorem raise_timer (k : ErrKind) (s : State) : (raise k s).timer = s.timer := by
  cases k <;> rfl
@[simp] theorem raise_notificationRegistered (k : ErrKind) (s : State) : (raise k s).notificationRegistered = s.notificationRegistered := by
  cases k <;> rfl
@[simp] theorem raise_lastHeartbeatTimestampMillis (k : ErrKind) (s : State) : (raise k s).lastHeartbeatTimestampMillis = s.lastHeartbeatTimestampMillis := by
  cases k <;> rfl
@[simp] theorem raise_live (k : ErrKind) (s : State) : (raise k s).live = s.live := by
  cases k <;> rfl
@[simp] theorem raise_inbox (k : ErrKind) (s : State) : (raise k s).inbox = s.inbox := by
  cases k <;> rfl
@[simp] theorem raise_result (k : ErrKind) (s : State) : (raise k s).result = s.result := by
  cases k <;> rfl
@[simp] theorem raise_params (k : ErrKind) (s : State) : (raise k s).params = s.params := by
  cases k <;> rfl
@[simp] theorem raise_draws (k : ErrKind) (s : State) : (raise k s).draws = s.draws := by
  cases k <;> rfl
@[simp] theorem raise_out (k : ErrKind) (s : State) : (raise k s).out = s.out ++ [.err k] := by
  cases k <;> rfl
@[simp] theorem raise_fstate (k : ErrKind) (s : State) :
    (raise k s).fstate = if k = .invalidDataLength then .header else s.fstate := by
  cases k <;> rfl

end Sys2Proof.Machine
end

