-- ==== Sys2Proof/Laws/Ops.lean ====
section
/-! SUPPORT. One lemma per shared operation saying once what it does; later proofs cite these and do not unfold. -/

namespace Sys2Proof.Machine

/-! ### Gates -/

theorem inSession_live {s : State} (h : s.live = true) (o : Host.Outcome State Fault Refusal) : inSession s o = o := by
  simp [inSession, h]

theorem inSession_notLive {s : State} (h : s.live = false) (o : Host.Outcome State Fault Refusal) :
    inSession s o = .refused .notLive := by
  simp [inSession, h]

/-- All an operation behind the session gate can do when it answers a next state. -/
theorem inSession_next {s u : State} {o : Host.Outcome State Fault Refusal} (h : inSession s o = .next u) :
    s.live = true ∧ o = .next u := by
  unfold inSession at h
  split at h
  · exact ⟨‹_›, h⟩
  · cases h

theorem inSession_fault {s : State} {o : Host.Outcome State Fault Refusal} {r : Fault} (h : inSession s o = .fault r) :
    s.live = true ∧ o = .fault r := by
  unfold inSession at h
  split at h
  · exact ⟨‹_›, h⟩
  · cases h

@[simp] theorem andThen_next (s : State) (f : State → Host.Outcome State Fault Refusal) :
    andThen (.next s) f = f s := rfl
@[simp] theorem andThen_fault (r : Fault) (f : State → Host.Outcome State Fault Refusal) :
    andThen (.fault r) f = .fault r := rfl
@[simp] theorem andThen_refused (r : Refusal) (f : State → Host.Outcome State Fault Refusal) :
    andThen (.refused r) f = .refused r := rfl

theorem andThen_eq_next {o : Host.Outcome State Fault Refusal} {f : State → Host.Outcome State Fault Refusal} {u : State}
    (h : andThen o f = .next u) : ∃ s, o = .next s ∧ f s = .next u := by
  cases o with
  | next s => exact ⟨s, rfl, h⟩
  | fault r => cases h
  | refused r => cases h

theorem andThen_eq_fault {o : Host.Outcome State Fault Refusal} {f : State → Host.Outcome State Fault Refusal} {r : Fault}
    (h : andThen o f = .fault r) : o = .fault r ∨ ∃ s, o = .next s ∧ f s = .fault r := by
  cases o with
  | next s => exact .inr ⟨s, rfl, h⟩
  | fault r' => exact .inl h
  | refused r' => cases h

theorem within_le {bound : Option Nat} {m n : Nat} (h : within bound n = true) (hm : m ≤ n) :
    within bound m = true := by
  cases bound with
  | none => rfl
  | some b => simp [within] at *; omega

theorem keepBits_fits (bits : Option Nat) (n : Nat) : fitsBits bits (keepBits bits n) = true := by
  cases bits with
  | none => rfl
  | some w => exact decide_eq_true (Nat.mod_lt _ (Nat.two_pow_pos w))

/-! ### Cutting a data chunk -/

theorem shape_lp_iff (t : MsgType) : t.shape = .lp ↔ t ∈ [MsgType.status, .event, .info] := by
  cases t <;> decide

theorem shape_nl_iff (t : MsgType) : t.shape = .nl ↔ t ∈ [MsgType.tare, .identify, .timer] := by
  cases t <;> decide

theorem byte_len (b : Byte) : (if b = 0 then 1 else b.toNat) = max b.toNat 1 := by
  by_cases h : b = 0
  · subst h; rfl
  · have : b.toNat ≠ 0 := fun h0 => h (BitVec.eq_of_toNat_eq (by simpa using h0))
    rw [if_neg h]; omega

theorem cutPayload_lp_nil {t : MsgType} (h : t.shape = .lp) : cutPayload t [] = none := by
  simp [cutPayload, lengthAndOffset, h]

/-- The cut of a length-prefixed chunk (R105 to R107), with `L' = max b 1` (R72). -/
theorem cutPayload_lp {t : MsgType} (h : t.shape = .lp) (b : Byte) (rest : Buffer) :
    cutPayload t (b :: rest) =
      if rest.length + 1 < max b.toNat 1 + 2 then none else some (rest.take (max b.toNat 1 - 1)) := by
  have h1 : 1 ≤ max b.toNat 1 := le_max_right _ _
  simp only [cutPayload, lengthAndOffset, h, byte_len, List.length_cons, slice, List.drop_succ_cons, List.drop_zero]
  rw [if_pos h1]

theorem cutPayload_fx {t : MsgType} (h : t.shape = .fx) (chunk : Buffer) :
    cutPayload t chunk = if chunk.length < 4 then none else some (chunk.take 1) := by
  simp [cutPayload, lengthAndOffset, h, slice]

theorem cutPayload_nl {t : MsgType} (h : t.shape = .nl) (chunk : Buffer) :
    cutPayload t chunk = if chunk.length < 2 then none else some [] := by
  simp [cutPayload, lengthAndOffset, h]

theorem cutPayload_fits {t : MsgType} {chunk payload : Buffer} (h : cutPayload t chunk = some payload) :
    payloadFits t payload := by
  unfold payloadFits
  cases hs : t.shape with
  | lp =>
    cases chunk with
    | nil => rw [cutPayload_lp_nil hs] at h; cases h
    | cons b rest =>
      rw [cutPayload_lp hs] at h
      split at h
      · cases h
      · injection h with h; subst h
        have := b.isLt
        simp only [List.length_take]; omega
  | fx =>
    rw [cutPayload_fx hs] at h
    split at h
    · cases h
    · injection h with h; subst h
      simp only [List.length_take]; omega
  | nl =>
    rw [cutPayload_nl hs] at h
    split at h
    · cases h
    · injection h with h; subst h; rfl

/-! ### The weight -/

/-- The sign flag is bit 1 of the flags byte (R77). -/
theorem signFlag_iff (b : Byte) : signFlag b = true ↔ b &&& 0x02 ≠ 0 := by
  revert b; unfold signFlag; decide

/-- The magnitude does not wrap (R135). -/
theorem magnitude_toNat (a b c : Byte) : (magnitude a b c).toNat = a.toNat + 256 * b.toNat + 65536 * c.toNat := by
  have := a.isLt; have := b.isLt; have := c.isLt
  simp only [magnitude, BitVec.toNat_ofNat]; omega

/-- The exponent of a unit code (R135). -/
theorem unitExp_val (b : Byte) : (unitExp b).val = if b.toNat ≤ 4 then b.toNat else 0 := by
  unfold unitExp
  by_cases h : b.toNat < 5
  · rw [dif_pos h, if_pos (by omega)]
  · rw [dif_neg h, if_neg (by omega)]; rfl

/-! ### Header chunks -/

theorem ofCode_code (t : MsgType) : MsgType.ofCode t.code = some t := by
  cases t <;> decide

/-- The 249 bytes that are no message type (R73). -/
theorem ofCode_eq_none (b : Byte) (h : b ∉ [0x00, 0x04, 0x07, 0x08, 0x0B, 0x0C, 0x0D]) : MsgType.ofCode b = none := by
  revert b; decide

theorem decodeHeader_headerChunk (t : MsgType) : decodeHeader (headerChunk t) = .ok t := by
  cases t <;> decide

theorem feedHeader_headerChunk (t : MsgType) (s : State) :
    feedHeader (headerChunk t) s = { s with msgType := some t, fstate := .data } := by
  simp [feedHeader, decodeHeader_headerChunk]

/-- All a header chunk can do (R101 to R104). -/
theorem feedHeader_cases (chunk : Buffer) (s : State) :
    (∃ t, chunk = headerChunk t ∧ feedHeader chunk s = { s with msgType := some t, fstate := .data }) ∨
    feedHeader chunk s = raise .invalidHeader s ∨ feedHeader chunk s = raise .unknownMessageType s := by
  unfold feedHeader
  match chunk with
  | [] | [_] | [_, _] | _ :: _ :: _ :: _ :: _ => exact .inr (.inl rfl)
  | [h1, h2, b] =>
    by_cases hm : h1 = Config.header1 ∧ h2 = Config.header2
    · cases ht : MsgType.ofCode b with
      | none => simp [decodeHeader, hm, ht]
      | some t =>
        refine .inl ⟨t, ?_, by simp [decodeHeader, hm, ht]⟩
        have hb : b = t.code := by
          revert ht
          simp only [MsgType.ofCode]
          repeat' split
          all_goals intro ht; first | (injection ht with ht; subst ht; assumption) | cases ht
        rw [hm.1, hm.2, hb, headerChunk]
    · simp [decodeHeader, hm]

/-! ### The event decoder -/

theorem cutBody_eq_none_iff (c : EventCode) (body : Buffer) : cutBody c body = none ↔ body.length < c.bodyLen := by
  rcases body with _ | ⟨_, _ | ⟨_, _ | ⟨_, _ | ⟨_, _ | ⟨_, _ | ⟨_, _⟩⟩⟩⟩⟩⟩ <;> cases c <;>
    simp [cutBody, EventCode.bodyLen]

theorem cutBody_bytes (r : EventRecord) (rest : Buffer) : cutBody r.eventCode (r.body ++ rest) = some (r, rest) := by
  cases r <;> rfl

theorem cutBody_length {c : EventCode} {body rest : Buffer} {r : EventRecord} (h : cutBody c body = some (r, rest)) :
    body.length = c.bodyLen + rest.length ∧ body = r.body ++ rest ∧ r.eventCode = c := by
  unfold cutBody at h
  split at h <;> simp_all [EventCode.bodyLen] <;> (obtain ⟨rfl, rfl⟩ := h; simp [EventRecord.body, EventRecord.eventCode]; try omega)

theorem ofCode_eventCode (c : EventCode) : EventCode.ofCode c.code = some c := by
  cases c <;> decide

/-- The 251 bytes that are no event code (R76). -/
theorem eventOfCode_eq_none (b : Byte) (h : b ∉ [0x05, 0x06, 0x07, 0x08, 0x0B]) : EventCode.ofCode b = none := by
  revert b; decide

/-- parseOne on a record's bytes answers the record and what follows it (R131, R134). -/
theorem parseOne_bytes (r : EventRecord) (rest : Buffer) :
    parseOne r.eventCode.code (r.body ++ rest) = .ok (r, rest) := by
  simp [parseOne, ofCode_eventCode, cutBody_bytes]

theorem parseOne_rest_length {code : Byte} {body rest : Buffer} {r : EventRecord} (h : parseOne code body = .ok (r, rest)) :
    rest.length ≤ body.length := by
  unfold parseOne at h
  split at h
  · cases h
  · split at h
    · cases h
    · rename_i hc
      injection h with h; subst h
      have := (cutBody_length hc).1
      omega

theorem parseOne_error {code : Byte} {body : Buffer} {k : ErrKind} (h : parseOne code body = .error k) :
    k = .unknownEventCode ∨ k = .invalidEventLength := by
  unfold parseOne at h
  split at h
  · injection h with h; exact .inl h.symm
  · split at h
    · injection h with h; exact .inr h.symm
    · cases h

@[simp] theorem parseLoop_nil (n : Nat) (s : State) : parseLoop n [] s = s := by
  cases n <;> rfl

theorem parseLoop_cons (n : Nat) (code : Byte) (body : Buffer) (s : State) :
    parseLoop (n + 1) (code :: body) s =
      match parseOne code body with
      | .error k => raise k s
      | .ok (r, rest) => parseLoop n rest (applyRecord r s) := rfl

/-- Fuel beyond the slice's length makes no difference. -/
theorem parseLoop_fuel (n m : Nat) (b : Buffer) (s : State) (hn : b.length ≤ n) (hm : b.length ≤ m) :
    parseLoop n b s = parseLoop m b s := by
  induction n generalizing m b s with
  | zero => cases b with
    | nil => simp
    | cons c b => simp at hn
  | succ n ih =>
    cases b with
    | nil => simp
    | cons c b =>
      cases m with
      | zero => simp at hm
      | succ m =>
        simp only [parseLoop_cons]
        split
        · rfl
        · rename_i r rest h
          have := parseOne_rest_length h
          simp only [List.length_cons] at hn hm
          exact ih m rest _ (by omega) (by omega)

@[simp] theorem parseSequence_nil (s : State) : parseSequence [] s = s := rfl

/-- The loop of R130, once around. -/
theorem parseSequence_cons (code : Byte) (body : Buffer) (s : State) :
    parseSequence (code :: body) s =
      match parseOne code body with
      | .error k => raise k s
      | .ok (r, rest) => parseSequence rest (applyRecord r s) := by
  unfold parseSequence
  rw [List.length_cons, parseLoop_cons]
  split
  · rfl
  · rename_i r rest h
    exact parseLoop_fuel _ _ _ _ (parseOne_rest_length h) (le_refl _)

/-- A record at the front is applied, and the loop goes on after exactly its bytes (R130, R134). -/
theorem parseSequence_record (r : EventRecord) (rest : Buffer) (s : State) :
    parseSequence (r.bytes ++ rest) s = parseSequence rest (applyRecord r s) := by
  simp [EventRecord.bytes, parseSequence_cons, parseOne_bytes]

/-! ### The checksum -/

@[simp] theorem checksum_nil : checksum [] = (0, 0) := rfl

/-- One more byte in front swaps the lanes. -/
theorem checksum_cons (b : Byte) (p : Buffer) : checksum (b :: p) = (b + (checksum p).2, (checksum p).1) := rfl

/-- The frames the session builds are the frames of R83. -/
theorem buildFrame_heartbeat : buildFrame .system Config.heartbeatBody = frameHeartbeat := by decide
theorem buildFrame_tare : buildFrame .tare Config.tareBody = frameTare := by decide
theorem buildFrame_identify : buildFrame .identify Config.identifyBody = frameIdentify := by decide
theorem wrapFrame_notify : wrapFrame Config.notifRequest = frameNotify := by decide
theorem buildFrame_timercmd (c : Byte) : buildFrame .tare (Config.timerBody c) = frameTimercmd c := by
  simp [buildFrame, Config.timerBody, checksum_cons, frameTimercmd, Config.header1, Config.header2, MsgType.code]

/-! ### Building under MAX_PAYLOAD -/

/-- Building and sending, in full: the Tx, or the refusal of a body over MAX_PAYLOAD. -/
theorem buildThen_sendFrame (t : MsgType) (p : Buffer) (s : State) :
    buildThen t p sendFrame s =
      if within s.params.maxPayload p.length then .next (send (buildFrame t p) s) else .refused .payloadTooLong := rfl

/-- Building for the caller, in full. -/
theorem buildThen_returnFrame (t : MsgType) (p : Buffer) (s : State) :
    buildThen t p returnFrame s =
      if within s.params.maxPayload p.length then .next (answer (.buffer (buildFrame t p)) s)
      else .refused .payloadTooLong := rfl

theorem wrapThen_short {ep : Buffer} (h : ep.length ≤ 254) (use : Buffer → State → Host.Outcome State Fault Refusal)
    (s : State) : wrapThen ep use s = buildThen .event (wrapBody ep) use s := by
  exact if_pos h

theorem wrapThen_long {ep : Buffer} (h : 254 < ep.length) (use : Buffer → State → Host.Outcome State Fault Refusal)
    (s : State) : wrapThen ep use s = .refused .wrapTooLong := by
  exact if_neg (by simp only [Config.maxWrap]; omega)

/-- Building faults only where the use of the frame does. -/
theorem buildThen_fault {t : MsgType} {p : Buffer} {use : Buffer → State → Host.Outcome State Fault Refusal} {s : State}
    {r : Fault} (h : buildThen t p use s = .fault r) : use (buildFrame t p) s = .fault r := by
  unfold buildThen at h
  split at h
  · exact h
  · cases h

/-- An event frame's data chunk is what WRAP puts behind the header. -/
theorem wrapFrame_eq (ep : Buffer) : wrapFrame ep = headerChunk .event ++ eventChunk ep := rfl

theorem eventChunk_length (ep : Buffer) : (eventChunk ep).length = ep.length + 3 := by
  simp [eventChunk, wrapBody]

theorem buildFrame_length (t : MsgType) (p : Buffer) : (buildFrame t p).length = p.length + 5 := by
  simp [buildFrame]

/-- An event payload of up to 254 bytes is cut from its own data chunk unchanged (R165). -/
theorem cutPayload_eventChunk {ep : Buffer} (h : ep.length ≤ 254) : cutPayload .event (eventChunk ep) = some ep := by
  have hn : (BitVec.ofNat 8 (ep.length + 1)).toNat = ep.length + 1 := by
    rw [BitVec.toNat_ofNat]; omega
  rw [eventChunk, wrapBody, List.cons_append, cutPayload_lp rfl, hn, if_neg (by simp)]
  simp

/-! ### FEED and the frames -/

/-- All FEED can do when it answers a next state (R100). -/
theorem feedChunk_next {chunk : Buffer} {s u : State} (h : feedChunk chunk s = .next u) :
    s.live = true ∧ within s.params.maxChunk chunk.length = true ∧
    (s.fstate = .header ∧ u = feedHeader chunk s ∨
      s.fstate = .data ∧ ∃ t, s.msgType = some t ∧ feedData t chunk s = .next u) := by
  obtain ⟨hl, h⟩ := inSession_next h
  split at h
  · refine ⟨hl, ‹_›, ?_⟩
    split at h
    · injection h with h; exact .inl ⟨‹_›, h.symm⟩
    · split at h
      · rename_i ht
        exact .inr ⟨‹_›, _, ht, h⟩
      · cases h
  · cases h

theorem feedChunk_header {chunk : Buffer} {s : State} (hl : s.live = true)
    (hw : within s.params.maxChunk chunk.length = true) (hf : s.fstate = .header) :
    feedChunk chunk s = .next (feedHeader chunk s) := by
  simp [feedChunk, inSession, hl, hw, hf]

theorem feedChunk_data {chunk : Buffer} {s : State} {t : MsgType} (hl : s.live = true)
    (hw : within s.params.maxChunk chunk.length = true) (hf : s.fstate = .data) (ht : s.msgType = some t) :
    feedChunk chunk s = feedData t chunk s := by
  simp [feedChunk, inSession, hl, hw, hf, ht]

theorem feedData_short {t : MsgType} {chunk : Buffer} (h : cutPayload t chunk = none) (s : State) :
    feedData t chunk s = .next (raise .invalidDataLength s) := by
  simp [feedData, h]

theorem feedData_cut {t : MsgType} {chunk payload : Buffer} (h : cutPayload t chunk = some payload) (s : State) :
    feedData t chunk s =
      andThen (dispatcher t payload (emit (.dispatch t payload) s)) fun u => .next { u with fstate := .header } := by
  simp [feedData, h]

/-- All a data chunk can do when it answers a next state (R105 to R108). -/
theorem feedData_next {t : MsgType} {chunk : Buffer} {s u : State} (h : feedData t chunk s = .next u) :
    (cutPayload t chunk = none ∧ u = raise .invalidDataLength s) ∨
    ∃ p v, cutPayload t chunk = some p ∧ dispatcher t p (emit (.dispatch t p) s) = .next v ∧
      u = { v with fstate := .header } := by
  cases hc : cutPayload t chunk with
  | none =>
    rw [feedData_short hc] at h
    injection h with h
    exact .inl ⟨rfl, h.symm⟩
  | some p =>
    rw [feedData_cut hc] at h
    obtain ⟨v, hv, h⟩ := andThen_eq_next h
    injection h with h
    exact .inr ⟨p, v, rfl, hv, h.symm⟩

/-- A frame from HEADER state is its data chunk under the latched type. -/
theorem feedTwo_headerChunk {t : MsgType} {d : Buffer} {s : State} (hl : s.live = true) (hf : s.fstate = .header)
    (h3 : within s.params.maxChunk 3 = true) (hd : within s.params.maxChunk d.length = true) :
    feedTwo (headerChunk t) d s = feedData t d { s with msgType := some t, fstate := .data } := by
  rw [feedTwo, feedChunk_header hl (by exact h3) hf, feedHeader_headerChunk, andThen_next]
  exact feedChunk_data hl hd rfl rfl

/-- A header chunk in DATA state is data (70_reset_and_hazards.md R244): it is dropped, or an empty message is dispatched. -/
theorem feedData_headerChunk (t t' : MsgType) (s : State) :
    feedData t (headerChunk t') s = .next { s with
      fstate := .header
      out := s.out ++ [if t.shape = .nl then .dispatch t [] else .err .invalidDataLength] } := by
  cases t <;> rfl

end Sys2Proof.Machine
end

