-- ==== Sys2Proof/Laws/Decode.lean ====
section
/-! SUPPORT. Small facts about the decoder and the encoder. -/

namespace Sys2Proof

theorem natOfBytes_natBytesAux (fuel n : Nat) (h : n < 256 ^ fuel) : natOfBytes (natBytesAux fuel n) = n := by
  induction fuel generalizing n with
  | zero => simp at h; subst h; rfl
  | succ f ih =>
    unfold natBytesAux
    split
    · subst n; rfl
    · have hd : n / 256 < 256 ^ f := by
        rw [Nat.div_lt_iff_lt_mul (by norm_num)]; rwa [pow_succ] at h
      simp only [natOfBytes, ih _ hd, BitVec.toNat_ofNat]
      omega

/-- A number survives its operand bytes (log 4). -/
@[simp] theorem natOfBytes_natBytes (n : Nat) : natOfBytes (natBytes n) = n := by
  apply natOfBytes_natBytesAux
  calc n < 2 ^ (n.log2 + 1) := Nat.lt_log2_self
    _ ≤ 256 ^ (n.log2 + 1) := Nat.pow_le_pow_left (by norm_num) _

theorem ofIndex_index (c : TimerCmd) : TimerCmd.ofIndex c.index = some c := by
  cases c <;> decide

/-- The record of an event delivery is read back (R75). -/
theorem decodeEvt_bytes (r : EventRecord) : decodeEvt r.bytes = .ok r.toInstr := by
  have := Machine.parseOne_bytes r []
  simp only [List.append_nil] at this
  simp [decodeEvt, EventRecord.bytes, this]

end Sys2Proof
end

