-- ==== Sys2Proof/Laws/Frames.lean ====
section
/-! SUPPORT. What the event decoder, the dispatcher and FEED leave unchanged, one lemma per field. -/

namespace Sys2Proof.Machine

/-! ### The event decoder -/

@[simp] theorem applyRecord_fstate (r : EventRecord) (s : State) : (applyRecord r s).fstate = s.fstate := by
  cases r <;> rfl
@[simp] theorem applyRecord_msgType (r : EventRecord) (s : State) : (applyRecord r s).msgType = s.msgType := by
  cases r <;> rfl
@[simp] theorem applyRecord_notificationRegistered (r : EventRecord) (s : State) : (applyRecord r s).notificationRegistered = s.notificationRegistered := by
  cases r <;> rfl
@[simp] theorem applyRecord_lastHeartbeatTimestampMillis (r : EventRecord) (s : State) : (applyRecord r s).lastHeartbeatTimestampMillis = s.lastHeartbeatTimestampMillis := by
  cases r <;> rfl
@[simp] theorem applyRecord_live (r : EventRecord) (s : State) : (applyRecord r s).live = s.live := by
  cases r <;> rfl
@[simp] theorem applyRecord_inbox (r : EventRecord) (s : State) : (applyRecord r s).inbox = s.inbox := by
  cases r <;> rfl
@[simp] theorem applyRecord_result (r : EventRecord) (s : State) : (applyRecord r s).result = s.result := by
  cases r <;> rfl
@[simp] theorem applyRecord_params (r : EventRecord) (s : State) : (applyRecord r s).params = s.params := by
  cases r <;> rfl
@[simp] theorem applyRecord_draws (r : EventRecord) (s : State) : (applyRecord r s).draws = s.draws := by
  cases r <;> rfl
@[simp] theorem applyRecord_out (r : EventRecord) (s : State) : (applyRecord r s).out = s.out := by
  cases r <;> rfl

/-- A property of states that every record and the two event errors keep is kept by the event decoder. -/
theorem parseSequence_induct {P : State → Prop} (hr : ∀ r s, P s → P (applyRecord r s))
    (he : ∀ k s, k = .unknownEventCode ∨ k = .invalidEventLength → P s → P (raise k s)) (payload : Buffer) (s : State)
    (h : P s) : P (parseSequence payload s) := by
  unfold parseSequence
  generalize payload.length = n
  induction n generalizing payload s with
  | zero => exact h
  | succ n ih =>
    cases payload with
    | nil => exact h
    | cons c b =>
      rw [parseLoop_cons]
      split
      · exact he _ _ (parseOne_error ‹_›) h
      · exact ih _ _ (hr _ _ h)

@[simp] theorem parseSequence_msgType (p : Buffer) (s : State) : (parseSequence p s).msgType = s.msgType :=
  parseSequence_induct (P := fun u => u.msgType = s.msgType) (fun r u h => by simpa using h) (fun k u _ h => by simpa using h)
    p s rfl
@[simp] theorem parseSequence_notificationRegistered (p : Buffer) (s : State) : (parseSequence p s).notificationRegistered = s.notificationRegistered :=
  parseSequence_induct (P := fun u => u.notificationRegistered = s.notificationRegistered) (fun r u h => by simpa using h) (fun k u _ h => by simpa using h)
    p s rfl
@[simp] theorem parseSequence_lastHeartbeatTimestampMillis (p : Buffer) (s : State) : (parseSequence p s).lastHeartbeatTimestampMillis = s.lastHeartbeatTimestampMillis :=
  parseSequence_induct (P := fun u => u.lastHeartbeatTimestampMillis = s.lastHeartbeatTimestampMillis) (fun r u h => by simpa using h) (fun k u _ h => by simpa using h)
    p s rfl
@[simp] theorem parseSequence_live (p : Buffer) (s : State) : (parseSequence p s).live = s.live :=
  parseSequence_induct (P := fun u => u.live = s.live) (fun r u h => by simpa using h) (fun k u _ h => by simpa using h)
    p s rfl
@[simp] theorem parseSequence_inbox (p : Buffer) (s : State) : (parseSequence p s).inbox = s.inbox :=
  parseSequence_induct (P := fun u => u.inbox = s.inbox) (fun r u h => by simpa using h) (fun k u _ h => by simpa using h)
    p s rfl
@[simp] theorem parseSequence_result (p : Buffer) (s : State) : (parseSequence p s).result = s.result :=
  parseSequence_induct (P := fun u => u.result = s.result) (fun r u h => by simpa using h) (fun k u _ h => by simpa using h)
    p s rfl
@[simp] theorem parseSequence_params (p : Buffer) (s : State) : (parseSequence p s).params = s.params :=
  parseSequence_induct (P := fun u => u.params = s.params) (fun r u h => by simpa using h) (fun k u _ h => by simpa using h)
    p s rfl
@[simp] theorem parseSequence_draws (p : Buffer) (s : State) : (parseSequence p s).draws = s.draws :=
  parseSequence_induct (P := fun u => u.draws = s.draws) (fun r u h => by simpa using h) (fun k u _ h => by simpa using h)
    p s rfl
@[simp] theorem parseSequence_fstate (p : Buffer) (s : State) : (parseSequence p s).fstate = s.fstate :=
  parseSequence_induct (P := fun u => u.fstate = s.fstate) (fun r u h => by simpa using h)
    (fun k u hk h => by obtain rfl | rfl := hk <;> simpa using h) p s rfl

/-! ### The commands and the handlers, each in full -/

theorem sendTare_eq (s : State) :
    sendTare s = if within s.params.maxPayload 1 then .next (send frameTare s) else .refused .payloadTooLong := by
  rw [sendTare, buildThen_sendFrame, buildFrame_tare]; rfl

theorem sendTimerCode_eq (c : Byte) (s : State) :
    sendTimerCode c s =
      if within s.params.maxPayload 2 then .next (send (frameTimercmd c) s) else .refused .payloadTooLong := by
  rw [sendTimerCode, buildThen_sendFrame, buildFrame_timercmd]; rfl

theorem sendIdentify_eq (s : State) :
    sendIdentify s =
      if within s.params.maxPayload 15 then .next (send frameIdentify s) else .refused .payloadTooLong := by
  rw [sendIdentify, buildThen_sendFrame, buildFrame_identify]; rfl

/-- The notification request, built as WRAP builds it (R192). -/
theorem wrapThen_notify (s : State) :
    wrapThen Config.notifRequest sendFrame s =
      if within s.params.maxPayload 9 then .next (send frameNotify s) else .refused .payloadTooLong := by
  rw [wrapThen_short (by decide), buildThen_sendFrame]
  change (if within s.params.maxPayload 9 then Host.Outcome.next (send (wrapFrame Config.notifRequest) s) else _) = _
  rw [wrapFrame_notify]

theorem sendNotificationRequest_eq (s : State) :
    sendNotificationRequest s =
      if within s.params.maxPayload 9 then .next { send frameNotify s with notificationRegistered := true }
      else .refused .payloadTooLong := by
  rw [sendNotificationRequest, wrapThen_notify]
  split <;> rfl

/-- Sending a heartbeat, in full (R188). -/
theorem sendHeartbeatFrame_eq (now : Nat) (s : State) :
    sendHeartbeatFrame now s =
      if within s.params.maxPayload 2 then .next { send frameHeartbeat s with lastHeartbeatTimestampMillis := now }
      else .refused .payloadTooLong := by
  rw [sendHeartbeatFrame, buildThen_sendFrame, buildFrame_heartbeat, show Config.heartbeatBody.length = 2 from rfl]
  by_cases hw : within s.params.maxPayload 2 = true
  · rw [if_pos hw, if_pos hw]; rfl
  · rw [if_neg hw, if_neg hw]; rfl

/-- A heartbeat in full (R188). -/
theorem sendHeartbeat_eq (now : Nat) (s : State) :
    sendHeartbeat now s =
      if now < s.lastHeartbeatTimestampMillis + 3000 then .next s
      else if within s.params.maxPayload 2 then .next { send frameHeartbeat s with lastHeartbeatTimestampMillis := now }
      else .refused .payloadTooLong := by
  rw [sendHeartbeat, sendHeartbeatFrame_eq]; rfl

/-- The free time of F_HEARTBEAT is one R188 sends at. -/
theorem earliest_le_unstatedNow (s : State) : s.lastHeartbeatTimestampMillis + 3000 ≤ unstatedNow s := by
  unfold unstatedNow earliestHeartbeat Config.heartbeatMinIntervalMs
  split <;> exact Nat.le_add_right _ _

/-- The free time of F_HEARTBEAT has TS_BITS bits where any allowed time has. -/
theorem unstatedNow_fits {s : State} (h : fitsBits s.params.tsBits (s.lastHeartbeatTimestampMillis + 3000) = true) :
    fitsBits s.params.tsBits (unstatedNow s) = true := by
  unfold unstatedNow
  split
  · rename_i e; rw [e]; rfl
  · rename_i w e
    rw [e] at h ⊢
    simp only [fitsBits, decide_eq_true_eq, earliestHeartbeat, Config.heartbeatMinIntervalMs] at h ⊢
    generalize 2 ^ w = m at h ⊢
    have := Nat.mod_lt (Config.freeHeartbeatDelay s.draws)
      (show 0 < m - (s.lastHeartbeatTimestampMillis + 3000) by omega)
    exact decide_eq_true (by omega)

/-- HandleInfo in full (R184). -/
theorem handleInfo_eq (payload : Buffer) (s : State) :
    handleInfo payload s =
      if within s.params.maxPayload 15 then .next { s with
        battery := payload[4]?.getD s.battery
        out := s.out ++ [.tx frameIdentify, .scheduleHeartbeat 4000] }
      else .refused .payloadTooLong := by
  have e : infoBattery payload s = { s with battery := payload[4]?.getD s.battery } := by
    unfold infoBattery
    split <;> simp_all
  rw [handleInfo, e, sendIdentify_eq]
  by_cases hw : within s.params.maxPayload 15 = true
  · rw [if_pos hw, if_pos hw, andThen_next]
    simp [send, emit, Config.heartbeatDelayMs]
  · rw [if_neg hw, if_neg hw, andThen_refused]

/-- HandleStatus in full (R185). -/
theorem handleStatus_eq (s : State) :
    handleStatus s =
      if s.notificationRegistered then .next s
      else if within s.params.maxPayload 9 then
        .next { s with notificationRegistered := true, out := s.out ++ [.tx frameNotify] }
      else .refused .payloadTooLong := by
  rw [handleStatus, sendNotificationRequest_eq]
  rfl

/-! ### The dispatcher and FEED -/

/-- All the dispatcher can do when it answers a next state (R183 to R187). -/
theorem dispatcher_cases {t : MsgType} {p : Buffer} {s u : State} (h : dispatcher t p s = .next u) :
    (t = .info ∧ within s.params.maxPayload 15 = true ∧ u = { s with
      battery := p[4]?.getD s.battery, out := s.out ++ [.tx frameIdentify, .scheduleHeartbeat 4000] }) ∨
    (t = .status ∧ s.notificationRegistered = false ∧ within s.params.maxPayload 9 = true ∧ u = { s with
      notificationRegistered := true, out := s.out ++ [.tx frameNotify] }) ∨
    (t = .event ∧ u = parseSequence p s) ∨
    ((t = .status ∧ s.notificationRegistered = true ∨ t ∈ [MsgType.system, .tare, .identify, .timer]) ∧ u = s) := by
  cases t with
  | info =>
    rw [dispatcher, handleInfo_eq] at h
    split at h
    · injection h with h; exact .inl ⟨rfl, ‹_›, h.symm⟩
    · cases h
  | status =>
    rw [dispatcher, handleStatus_eq] at h
    split at h
    · injection h with h; exact .inr (.inr (.inr ⟨.inl ⟨rfl, ‹_›⟩, h.symm⟩))
    · split at h
      · injection h with h; exact .inr (.inl ⟨rfl, by simp_all, ‹_›, h.symm⟩)
      · cases h
  | event => injection h with h; exact .inr (.inr (.inl ⟨rfl, h.symm⟩))
  | system | tare | identify | timer =>
    injection h with h; exact .inr (.inr (.inr ⟨.inr (by decide), h.symm⟩))

/-- The dispatcher completes where MAX_PAYLOAD takes the handler's frame. -/
theorem dispatcher_completes {t : MsgType} {s : State} (h : handlerFits t s) (p : Buffer) :
    ∃ u, dispatcher t p s = .next u := by
  cases t with
  | info => exact ⟨_, by rw [dispatcher, handleInfo_eq, if_pos (h.1 rfl)]⟩
  | status =>
    rw [dispatcher, handleStatus_eq]
    cases hn : s.notificationRegistered with
    | true => exact ⟨_, if_pos rfl⟩
    | false => exact ⟨_, by rw [if_neg (by decide), if_pos (h.2 rfl hn)]⟩
  | event | system | tare | identify | timer => exact ⟨_, rfl⟩

theorem dispatcher_ne_fault (t : MsgType) (p : Buffer) (s : State) (r : Fault) : dispatcher t p s ≠ .fault r := by
  cases t with
  | info => rw [dispatcher, handleInfo_eq]; split <;> nofun
  | status => rw [dispatcher, handleStatus_eq]; repeat' split
              all_goals nofun
  | event | system | tare | identify | timer => nofun

theorem feedData_ne_fault (t : MsgType) (c : Buffer) (s : State) (r : Fault) : feedData t c s ≠ .fault r := by
  intro h
  unfold feedData at h
  split at h
  · cases h
  · obtain h | ⟨_, _, h⟩ := andThen_eq_fault h
    · exact dispatcher_ne_fault _ _ _ _ h
    · cases h

/-- Where FEED faults (log 11). -/
theorem feedChunk_fault {chunk : Buffer} {s : State} {r : Fault} (h : feedChunk chunk s = .fault r) :
    s.live = true ∧ within s.params.maxChunk chunk.length = true ∧ s.fstate = .data ∧ s.msgType = none := by
  obtain ⟨hl, h⟩ := inSession_fault h
  split at h
  · refine ⟨hl, ‹_›, ?_⟩
    split at h
    · cases h
    · split at h
      · exact absurd h (feedData_ne_fault _ _ _ _)
      · exact ⟨‹_›, ‹_›⟩
  · cases h

/-- A data chunk completes where MAX_PAYLOAD takes the handler's frame. -/
theorem feedData_completes {t : MsgType} {s : State} (h : handlerFits t s) (c : Buffer) :
    ∃ u, feedData t c s = .next u := by
  cases hc : cutPayload t c with
  | none => exact ⟨_, feedData_short hc s⟩
  | some p =>
    obtain ⟨v, hv⟩ := dispatcher_completes (s := emit (.dispatch t p) s) h p
    exact ⟨_, by rw [feedData_cut hc, hv, andThen_next]⟩

/-- What no part of a FEED in DATA state writes. -/
structure FeedKeeps (s u : State) : Prop where
  msgType : u.msgType = s.msgType
  lastHeartbeatTimestampMillis : u.lastHeartbeatTimestampMillis = s.lastHeartbeatTimestampMillis
  live : u.live = s.live
  inbox : u.inbox = s.inbox
  result : u.result = s.result
  params : u.params = s.params
  draws : u.draws = s.draws

theorem dispatcher_keeps {t : MsgType} {p : Buffer} {s u : State} (h : dispatcher t p s = .next u) :
    u.fstate = s.fstate ∧ FeedKeeps s u := by
  obtain ⟨-, -, rfl⟩ | ⟨-, -, -, rfl⟩ | ⟨-, rfl⟩ | ⟨-, rfl⟩ := dispatcher_cases h <;>
    exact ⟨by simp, by constructor <;> simp⟩

theorem feedData_keeps {t : MsgType} {c : Buffer} {s u : State} (h : feedData t c s = .next u) :
    u.fstate = .header ∧ FeedKeeps s u := by
  obtain ⟨-, rfl⟩ | ⟨p, v, -, hv, rfl⟩ := feedData_next h
  · exact ⟨by simp, by constructor <;> simp⟩
  · obtain ⟨-, k⟩ := dispatcher_keeps hv
    exact ⟨rfl, ⟨k.msgType, k.lastHeartbeatTimestampMillis, k.live, k.inbox, k.result, k.params, k.draws⟩⟩

/-- The core-tier dispatcher (R119) is the session's for MT_EVENT and does nothing for the other types. -/
theorem coreDispatcher_eq (p : Buffer) (s : State) (t : MsgType) :
    .next (coreDispatcher t p s) = if t = .event then dispatcher t p s else .next s := by
  cases t <;> rfl

end Sys2Proof.Machine
end

