-- ==== Sys2Proof/Laws/PerInstr.lean ====
section
/-! SUPPORT. The family EncodingHead: the encoding of an instruction begins with its row's bits (spec/opcode_table.json: a
header chunk, an event code, the fixed frame bytes, an opsel), in the row's format. -/

namespace Sys2Proof.Laws.EncodingHead

/-- The format of an instruction's row and the bytes its match fixes. -/
def row : Instr → Format × Buffer
  | .mtSystem _ => (.hdr, [0xEF, 0xDD, 0x00])
  | .mtTare _ => (.hdr, [0xEF, 0xDD, 0x04])
  | .mtInfo _ => (.hdr, [0xEF, 0xDD, 0x07])
  | .mtStatus _ => (.hdr, [0xEF, 0xDD, 0x08])
  | .mtIdentify _ => (.hdr, [0xEF, 0xDD, 0x0B])
  | .mtEvent _ => (.hdr, [0xEF, 0xDD, 0x0C])
  | .mtTimer _ => (.hdr, [0xEF, 0xDD, 0x0D])
  | .evWeight .. => (.evt, [0x05])
  | .evBattery _ => (.evt, [0x06])
  | .evTimer .. => (.evt, [0x07])
  | .evKey _ => (.evt, [0x08])
  | .evAck .. => (.evt, [0x0B])
  | .fHeartbeat => (.txf, [0xEF, 0xDD, 0x00, 0x02, 0x00, 0x02, 0x00])
  | .fTare => (.txf, [0xEF, 0xDD, 0x04, 0x00, 0x00, 0x00])
  | .fTimercmd c => (.txf, [0xEF, 0xDD, 0x04, 0x00, c, 0x00, c])
  | .fIdentify => (.txf, [0xEF, 0xDD, 0x0B] ++ List.replicate 15 0x2D ++ [0x68, 0x3B])
  | .fNotify => (.txf, [0xEF, 0xDD, 0x0C, 0x09, 0x00, 0x01, 0x01, 0x05, 0x02, 0x05, 0x03, 0x04, 0x18, 0x06])
  | .connect => (.op, [0x0])
  | .disconnect => (.op, [0x1])
  | .feed _ => (.op, [0x2])
  | .cksum _ => (.op, [0x3])
  | .build .. => (.op, [0x4])
  | .wrap _ => (.op, [0x5])
  | .heartbeat _ => (.op, [0x6])
  | .tare => (.op, [0x7])
  | .timercmd _ => (.op, [0x8])
  | .identify => (.op, [0x9])
  | .notify => (.op, [0xA])

def Statement (i : Instr) : Prop := (encode i).fmt = (row i).1 ∧ (row i).2 <+: (encode i).bytes

theorem mtSystem (d : Buffer) : Statement (.mtSystem d) := ⟨rfl, d, rfl⟩
theorem mtTare (d : Buffer) : Statement (.mtTare d) := ⟨rfl, d, rfl⟩
theorem mtInfo (d : Buffer) : Statement (.mtInfo d) := ⟨rfl, d, rfl⟩
theorem mtStatus (d : Buffer) : Statement (.mtStatus d) := ⟨rfl, d, rfl⟩
theorem mtIdentify (d : Buffer) : Statement (.mtIdentify d) := ⟨rfl, d, rfl⟩
theorem mtEvent (d : Buffer) : Statement (.mtEvent d) := ⟨rfl, d, rfl⟩
theorem mtTimer (d : Buffer) : Statement (.mtTimer d) := ⟨rfl, d, rfl⟩
theorem evWeight (b0 b1 b2 b3 b4 b5 : Byte) : Statement (.evWeight b0 b1 b2 b3 b4 b5) := ⟨rfl, _, rfl⟩
theorem evBattery (level : Byte) : Statement (.evBattery level) := ⟨rfl, _, rfl⟩
theorem evTimer (minutes seconds millis : Byte) : Statement (.evTimer minutes seconds millis) := ⟨rfl, _, rfl⟩
theorem evKey (v : Byte) : Statement (.evKey v) := ⟨rfl, _, rfl⟩
theorem evAck (v0 v1 : Byte) : Statement (.evAck v0 v1) := ⟨rfl, _, rfl⟩
theorem fHeartbeat : Statement .fHeartbeat := ⟨rfl, [], rfl⟩
theorem fTare : Statement .fTare := ⟨rfl, [], rfl⟩
theorem fTimercmd (c : Byte) : Statement (.fTimercmd c) := ⟨rfl, [], rfl⟩
theorem fIdentify : Statement .fIdentify := ⟨rfl, [], rfl⟩
theorem fNotify : Statement .fNotify := ⟨rfl, [], rfl⟩
theorem connect : Statement .connect := ⟨rfl, [], rfl⟩
theorem disconnect : Statement .disconnect := ⟨rfl, [], rfl⟩
theorem feed (chunk : Buffer) : Statement (.feed chunk) := ⟨rfl, chunk, rfl⟩
theorem cksum (p : Buffer) : Statement (.cksum p) := ⟨rfl, p, rfl⟩
theorem build (type : MsgType) (p : Buffer) : Statement (.build type p) := ⟨rfl, type.code :: p, rfl⟩
theorem wrap (ep : Buffer) : Statement (.wrap ep) := ⟨rfl, ep, rfl⟩
theorem heartbeat (now : Nat) : Statement (.heartbeat now) := ⟨rfl, natBytes now, rfl⟩
theorem tare : Statement .tare := ⟨rfl, [], rfl⟩
theorem timercmd (cmd : TimerCmd) : Statement (.timercmd cmd) := ⟨rfl, [cmd.index], rfl⟩
theorem identify : Statement .identify := ⟨rfl, [], rfl⟩
theorem notify : Statement .notify := ⟨rfl, [], rfl⟩

end Sys2Proof.Laws.EncodingHead
end

