-- ==== Sys2Proof/Laws/Step.lean ====
section
/-! SUPPORT. What an instruction and a step can do, said once: feeding instructions are chunks fed in turn, records are
the event decoder's, and a property every part keeps is kept by the step. -/

namespace Sys2Proof.Machine

/-! ### Output is only appended -/

theorem parseSequence_out (p : Buffer) (s : State) : ∃ evs, (parseSequence p s).out = s.out ++ evs :=
  parseSequence_induct (P := fun u => ∃ evs, u.out = s.out ++ evs) (fun r u h => by simpa using h)
    (fun k u _ ⟨e, h⟩ => ⟨e ++ [.err k], by simp [h]⟩) p s ⟨[], by simp⟩

theorem dispatcher_out {t : MsgType} {p : Buffer} {s u : State} (h : dispatcher t p s = .next u) :
    ∃ evs, u.out = s.out ++ evs := by
  obtain ⟨-, -, rfl⟩ | ⟨-, -, -, rfl⟩ | ⟨-, rfl⟩ | ⟨-, rfl⟩ := dispatcher_cases h
  · exact ⟨_, rfl⟩
  · exact ⟨_, rfl⟩
  · exact parseSequence_out p s
  · exact ⟨[], by simp⟩

/-- A data chunk puts out one error, or the Dispatch and what the handler adds. -/
theorem feedData_out {t : MsgType} {c : Buffer} {s u : State} (h : feedData t c s = .next u) :
    (cutPayload t c = none ∧ u.out = s.out ++ [.err .invalidDataLength]) ∨
    ∃ p evs, cutPayload t c = some p ∧ u.out = s.out ++ .dispatch t p :: evs := by
  obtain ⟨hc, rfl⟩ | ⟨p, v, hc, hv, rfl⟩ := feedData_next h
  · exact .inl ⟨hc, by simp⟩
  · obtain ⟨e, he⟩ := dispatcher_out hv
    exact .inr ⟨p, e, hc, by simpa using he⟩

/-! ### Records -/

/-- A record is the MT_EVENT frame that carries it (log 2). -/
theorem exec_record (r : EventRecord) (s : State) : exec r.toInstr s = feedEvent r.bytes s := by
  cases r <;> rfl

/-- The event decoder neither reads nor writes `fstate`. -/
theorem parseSequence_withFstate (p : Buffer) (s : State) (f : FrameState) :
    parseSequence p { s with fstate := f } = { parseSequence p s with fstate := f } := by
  unfold parseSequence
  generalize p.length = n
  induction n generalizing p s with
  | zero => rfl
  | succ n ih =>
    cases p with
    | nil => rfl
    | cons c b =>
      simp only [parseLoop_cons]
      split
      · rename_i h
        obtain rfl | rfl := parseOne_error h <;> rfl
      · rename_i r rest h
        rw [← ih]
        cases r <;> rfl

/-- Good records in front are applied in order (R130). -/
theorem parseSequence_records (rs : List EventRecord) (tail : Buffer) (s : State) :
    parseSequence (rs.flatMap EventRecord.bytes ++ tail) s =
      parseSequence tail (rs.foldl (fun s r => applyRecord r s) s) := by
  induction rs generalizing s with
  | nil => rfl
  | cons r rs ih => simp only [List.flatMap_cons, List.append_assoc, parseSequence_record, ih, List.foldl_cons]

/-- An accepted MT_EVENT frame from HEADER state, in full (R117). -/
theorem feedTwo_event {d payload : Buffer} {s : State} (hl : s.live = true) (hf : s.fstate = .header)
    (h3 : within s.params.maxChunk 3 = true) (hd : within s.params.maxChunk d.length = true)
    (hc : cutPayload .event d = some payload) :
    feedTwo (headerChunk .event) d s = .next { parseSequence payload { s with
      msgType := some .event, out := s.out ++ [.dispatch .event payload] } with fstate := .header } := by
  rw [feedTwo_headerChunk hl hf h3 hd, feedData_cut hc, dispatcher, andThen_next]
  have := parseSequence_withFstate payload { s with
    msgType := some .event, out := s.out ++ [.dispatch .event payload] } .data
  simp only [emit] at this ⊢
  rw [this]

/-- A record's instruction from HEADER state, in full: the record applied, and what its frame leaves. -/
theorem exec_record_header {s : State} (r : EventRecord) (hl : s.live = true) (hf : s.fstate = .header)
    (hw : within s.params.maxChunk (r.bytes.length + 3) = true) :
    exec r.toInstr s = .next { applyRecord r s with
      msgType := some .event, out := s.out ++ [.dispatch .event r.bytes] } := by
  have hb : r.bytes.length ≤ 254 := by cases r <;> simp [EventRecord.bytes, EventRecord.body]
  have h := feedTwo_event hl hf (within_le hw (by omega)) (by rwa [eventChunk_length]) (cutPayload_eventChunk hb)
  rw [exec_record, feedEvent, h]
  have hp := parseSequence_record r [] { s with
    msgType := some .event, out := s.out ++ [.dispatch .event r.bytes] }
  rw [List.append_nil, parseSequence_nil] at hp
  rw [hp]
  cases r <;> simp [applyRecord, applyWeight, applyBattery, applyTimer, hf]

/-! ### Feeding instructions -/

/-- A feeding instruction is one chunk or two, fed in turn; where two, the first is a header chunk. -/
theorem exec_feeding {i : Instr} (h : isFeeding i = true) :
    (∃ c, ∀ s, exec i s = feedChunk c s) ∨ (∃ t d, ∀ s, exec i s = feedTwo (headerChunk t) d s) := by
  cases i <;> first
    | exact nomatch (h : false = true)
    | exact .inl ⟨_, fun _ => rfl⟩
    | exact .inr ⟨_, _, fun _ => rfl⟩

/-- All a frame can do when it answers a next state: from HEADER its data chunk under its type; from DATA its header
chunk is data and its data chunk is a header, and only the framer's own registers change. -/
theorem feedTwo_headerChunk_cases {t : MsgType} {d : Buffer} {s u : State}
    (h : feedTwo (headerChunk t) d s = .next u) : s.live = true ∧
    ((s.fstate = .header ∧ feedData t d { s with msgType := some t, fstate := .data } = .next u) ∨
      (s.fstate = .data ∧ ∃ f m evs, u = { s with fstate := f, msgType := m, out := s.out ++ evs })) := by
  obtain ⟨v, h1, h2⟩ := andThen_eq_next h
  obtain ⟨hl, -, ⟨hf, rfl⟩ | ⟨hf, t', -, h1⟩⟩ := feedChunk_next h1
  · rw [feedHeader_headerChunk] at h2
    obtain ⟨-, -, ⟨hc, -⟩ | ⟨-, t', ht, h2⟩⟩ := feedChunk_next h2
    · cases hc
    · injection ht with ht
      exact ⟨hl, .inl ⟨hf, ht ▸ h2⟩⟩
  · rw [feedData_headerChunk] at h1
    injection h1 with h1
    subst h1
    refine ⟨hl, .inr ⟨hf, ?_⟩⟩
    obtain ⟨-, -, ⟨-, rfl⟩ | ⟨hc, -⟩⟩ := feedChunk_next h2
    · obtain ⟨t2, -, e⟩ | e | e := feedHeader_cases d { s with
          fstate := .header
          out := s.out ++ [if t'.shape = .nl then .dispatch t' [] else .err .invalidDataLength] }
      · exact ⟨.data, some t2, _, e⟩
      · exact ⟨.header, s.msgType, _, by rw [e, raise, emit]; simp only [List.append_assoc]; rfl⟩
      · exact ⟨.header, s.msgType, _, by rw [e, raise, emit]; simp only [List.append_assoc]; rfl⟩
    · cases hc

/-! ### The instructions that do not feed -/

/-- A frame is sent or its body is over MAX_PAYLOAD: what an operation of that form can do in a session. -/
theorem sent_next {c : Bool} {s v u : State} {r : Refusal}
    (h : inSession s (if c = true then .next v else .refused r) = .next u) : s.live = true ∧ u = v := by
  obtain ⟨hl, h⟩ := inSession_next h
  split at h
  · injection h with h; exact ⟨hl, h.symm⟩
  · cases h

/-- The frame sent by an instruction that sends one and writes no register. -/
def sentFrame (p : Params) : Instr → Option Buffer
  | .tare | .fTare => some frameTare
  | .identify | .fIdentify => some frameIdentify
  | .timercmd cmd => some (frameTimercmd (cmdByte p cmd))
  | .fTimercmd c => some (frameTimercmd c)
  | _ => none

/-- Such a frame is a command frame, and neither a heartbeat nor a notification request. -/
theorem sentFrame_some {p : Params} {i : Instr} {f : Buffer} (h : sentFrame p i = some f) :
    IsCommandFrame f ∧ f ≠ frameHeartbeat ∧ f ≠ frameNotify := by
  cases i with
  | tare | fTare => injection h with h; subst h; exact ⟨.inr (.inl rfl), by decide, by decide⟩
  | identify | fIdentify =>
    injection h with h; subst h; exact ⟨.inr (.inr (.inr (.inl rfl))), by decide, by decide⟩
  | timercmd | fTimercmd =>
    injection h with h; subst h
    exact ⟨.inr (.inr (.inl ⟨_, rfl⟩)), by simp [frameTimercmd, frameHeartbeat], by simp [frameTimercmd, frameNotify]⟩
  | _ => cases h

/-- All an instruction that feeds nothing can do when it answers a next state. -/
theorem exec_rest_cases {i : Instr} {s u : State} (hi : isFeeding i = false) (h : exec i s = .next u) :
    (i = .connect ∧ u = openSession s) ∨ (i = .disconnect ∧ s.live = true ∧ u = closeSession s) ∨
    (((∃ p, i = .cksum p) ∨ (∃ t p, i = .build t p) ∨ ∃ ep, i = .wrap ep) ∧ ∃ r, u = answer r s) ∨
    (∃ now, i = .heartbeat now ∧ s.live = true ∧ (u = s ∨
      fitsBits s.params.tsBits now = true ∧ s.lastHeartbeatTimestampMillis + 3000 ≤ now ∧
        u = { send frameHeartbeat s with lastHeartbeatTimestampMillis := now })) ∨
    (∃ now, i = .fHeartbeat ∧ s.live = true ∧ fitsBits s.params.tsBits now = true ∧
      s.lastHeartbeatTimestampMillis + 3000 ≤ now ∧
        u = { send frameHeartbeat s with lastHeartbeatTimestampMillis := now, draws := s.draws + 1 }) ∨
    ((i = .notify ∨ i = .fNotify) ∧ s.live = true ∧
      u = { send frameNotify s with notificationRegistered := true }) ∨
    (s.live = true ∧ ∃ f, sentFrame s.params i = some f ∧ u = send f s) := by
  have sent : ∀ {f n}, sentFrame s.params i = some f →
      inSession s (if within s.params.maxPayload n = true then .next (send f s) else .refused .payloadTooLong) = .next u →
      s.live = true ∧ ∃ f, sentFrame s.params i = some f ∧ u = send f s :=
    fun hf h => ⟨(sent_next h).1, _, hf, (sent_next h).2⟩
  cases i with
  | connect => injection h with h; exact .inl ⟨rfl, h.symm⟩
  | disconnect =>
    obtain ⟨hl, h⟩ := inSession_next h
    injection h with h; exact .inr (.inl ⟨rfl, hl, h.symm⟩)
  | cksum p => injection h with h; exact .inr (.inr (.inl ⟨.inl ⟨p, rfl⟩, _, h.symm⟩))
  | build t p =>
    rw [exec, execBuild, buildThen_returnFrame] at h
    split at h
    · injection h with h; exact .inr (.inr (.inl ⟨.inr (.inl ⟨t, p, rfl⟩), _, h.symm⟩))
    · cases h
  | wrap ep =>
    change wrapThen ep returnFrame s = _ at h
    unfold wrapThen at h
    split at h
    · rw [buildThen_returnFrame] at h
      split at h
      · injection h with h; exact .inr (.inr (.inl ⟨.inr (.inr ⟨ep, rfl⟩), _, h.symm⟩))
      · cases h
    · cases h
  | heartbeat now =>
    obtain ⟨hl, h⟩ := inSession_next h
    refine .inr (.inr (.inr (.inl ⟨now, rfl, hl, ?_⟩)))
    split at h
    · rw [sendHeartbeat_eq] at h
      split at h
      · injection h with h; exact .inl h.symm
      · split at h
        · injection h with h; exact .inr ⟨‹_›, by omega, h.symm⟩
        · cases h
    · cases h
  | fHeartbeat =>
    obtain ⟨hl, h⟩ := inSession_next h
    split at h
    · rename_i hf
      rw [sendHeartbeatFrame_eq] at h
      split at h
      · injection h with h
        exact .inr (.inr (.inr (.inr (.inl
          ⟨_, rfl, hl, unstatedNow_fits hf, earliest_le_unstatedNow s, h.symm⟩))))
      · cases h
    · cases h
  | notify =>
    have h := sent_next (sendNotificationRequest_eq s ▸ (show inSession s (sendNotificationRequest s) = _ from h))
    exact .inr (.inr (.inr (.inr (.inr (.inl ⟨.inl rfl, h⟩)))))
  | fNotify =>
    have h := sent_next (sendNotificationRequest_eq s ▸ (show inSession s (sendNotificationRequest s) = _ from h))
    exact .inr (.inr (.inr (.inr (.inr (.inl ⟨.inr rfl, h⟩)))))
  | tare | fTare =>
    exact .inr (.inr (.inr (.inr (.inr (.inr (sent rfl
      (sendTare_eq s ▸ (show inSession s (sendTare s) = _ from h))))))))
  | timercmd cmd =>
    exact .inr (.inr (.inr (.inr (.inr (.inr (sent rfl
      (sendTimerCode_eq (cmdByte s.params cmd) s ▸ (show inSession s (sendTimerCode _ s) = _ from h))))))))
  | fTimercmd c =>
    exact .inr (.inr (.inr (.inr (.inr (.inr (sent rfl
      (sendTimerCode_eq c s ▸ (show inSession s (sendTimerCode c s) = _ from h))))))))
  | identify | fIdentify =>
    exact .inr (.inr (.inr (.inr (.inr (.inr (sent rfl
      (sendIdentify_eq s ▸ (show inSession s (sendIdentify s) = _ from h))))))))
  | mtSystem | mtTare | mtInfo | mtStatus | mtIdentify | mtEvent | mtTimer | evWeight | evBattery | evTimer | evKey
  | evAck | feed => cases hi

/-- Only a fed chunk can fault. -/
theorem exec_rest_ne_fault {i : Instr} (hi : isFeeding i = false) (s : State) (r : Fault) : exec i s ≠ .fault r := by
  have sent : ∀ t p, inSession s (buildThen t p sendFrame s) ≠ .fault r := fun t p h =>
    nomatch buildThen_fault (inSession_fault h).2
  intro h
  cases i with
  | connect | cksum => cases h
  | disconnect => cases (inSession_fault h).2
  | build t p => exact nomatch buildThen_fault (h : buildThen t p returnFrame s = _)
  | wrap ep =>
    change wrapThen ep returnFrame s = _ at h
    unfold wrapThen at h
    split at h
    · exact nomatch buildThen_fault h
    · cases h
  | heartbeat now =>
    have h := (inSession_fault h).2
    rw [sendHeartbeat_eq] at h
    repeat' split at h
    all_goals cases h
  | fHeartbeat =>
    have h := (inSession_fault h).2
    rw [sendHeartbeatFrame_eq] at h
    repeat' split at h
    all_goals cases h
  | notify | fNotify =>
    have h := (inSession_fault h).2
    rw [sendNotificationRequest_eq] at h
    split at h <;> cases h
  | tare | timercmd | identify | fTare | fTimercmd | fIdentify => exact sent _ _ h
  | mtSystem | mtTare | mtInfo | mtStatus | mtIdentify | mtEvent | mtTimer | evWeight | evBattery | evTimer | evKey
  | evAck | feed => cases hi

/-- A property of states that a fed chunk keeps is kept by two. -/
theorem feedTwo_preserves {P : State → Prop} (hfeed : ∀ c s u, P s → feedChunk c s = .next u → P u) {c d : Buffer}
    {s u : State} (hs : P s) (h : feedTwo c d s = .next u) : P u := by
  obtain ⟨v, h1, h2⟩ := andThen_eq_next h
  exact hfeed d v u (hfeed c s v hs h1) h2

/-- All a step can do, as a proof rule: a property kept by taking a delivery, by a fed chunk and by the instructions that
do not feed is kept by the step. -/
theorem step_preserves {P : State → Prop} {s u : State} (hpop : ∀ s r, P s → P { s with inbox := r })
    (hfeed : ∀ c s u, P s → feedChunk c s = .next u → P u)
    (hrest : ∀ i s u, isFeeding i = false → P s → exec i s = .next u → P u) (hs : P s) (h : step s = .next u) : P u := by
  unfold step fetch at h
  split at h
  · injection h with h
    exact h ▸ hs
  · rename_i d s' hh
    split at hh
    · cases hh
    · rename_i d' rest _
      injection hh with hh
      injection hh with h1 h2
      subst h1 h2
      have hs' := hpop s rest hs
      split at h
      · rename_i i _
        cases hf : isFeeding i with
        | true =>
          obtain ⟨c, hc⟩ | ⟨t, d, hc⟩ := exec_feeding hf
          · exact hfeed c _ u hs' (hc _ ▸ h)
          · exact feedTwo_preserves hfeed hs' (hc _ ▸ h)
        | false => exact hrest i _ u hf hs' h
      · unfold runUndecoded feedUndecodedEvents at h
        repeat' split at h
        all_goals first
          | cases h
          | exact feedTwo_preserves hfeed hs' h

/-! ### Lane sums -/

/-- One more byte in front swaps the lanes of R160. -/
theorem laneSum_cons (par : Nat) (b : Byte) (p : Buffer) (hp : par < 2) :
    laneSum par (b :: p) = (if par = 0 then b.toNat else 0) + laneSum (1 - par) p := by
  have hcomp : (fun i => decide (i % 2 = par)) ∘ Nat.succ = fun i => decide (i % 2 = 1 - par) := by
    funext i
    simp
    omega
  unfold laneSum
  rw [List.length_cons, List.range_succ_eq_map, List.filter_cons, List.filter_map, hcomp]
  obtain rfl | rfl : par = 0 ∨ par = 1 := by omega
  · simp [Function.comp_def]
  · simp [Function.comp_def]

end Sys2Proof.Machine
end

