-- ==== Sys2Proof/Tests/Slice0.lean ====
section
/-! SUPPORT. The model's own tests: decodings of words written out from 30_encoding.md, single steps with the results of
95_test_vectors.md or of the worked examples of the rules, the WellFormed smoke test, and a witness for every statement's
hypotheses. -/

namespace Sys2Proof.Tests

open Sys2Proof.Machine

/-! ### States -/

/-- Parameters with three different code bytes, else R6's defaults. -/
def params : Params := ⟨none, none, none, 0x11, 0x22, 0x33⟩

/-- S0 of 95_test_vectors.md: the state CONNECT leaves. -/
def s0 : State := { openSession State.reset with params := params }

/-- S0 in DATA state under a latched type. -/
def sData (t : MsgType) : State := { s0 with fstate := .data, msgType := some t }

/-- S0 with every open bound finite: 3-byte chunks, 2-byte bodies, 4-bit stamps. -/
def sBounded : State := { s0 with params := { params with maxChunk := some 3, maxPayload := some 2, tsBits := some 4 } }

/-- The next state, or power-on where there is none. -/
def after (o : Host.Outcome State Fault Refusal) : State :=
  match o with
  | .next t => t
  | .fault _ => State.reset
  | .refused _ => State.reset

/-- The outcome's kind: a stop's name, or none for a next state. -/
def stop (o : Host.Outcome State Fault Refusal) : Option (Fault ⊕ Refusal) :=
  match o with
  | .next _ => none
  | .fault r => some (.inl r)
  | .refused r => some (.inr r)

/-! ### WellFormed: an ill-formed term for its one check (R164, D22) -/

theorem test_wf_wrap_longest : (Instr.wrap (List.replicate 254 0xAA)).WellFormed := by decide +kernel
theorem test_wf_wrap_too_long : ¬ (Instr.wrap (List.replicate 255 0xAA)).WellFormed := by decide +kernel

/-! ### Decoding: one word per constructor, from the tables of 30_encoding.md -/

theorem test_decode_mtSystem : decode ⟨.hdr, [0xEF, 0xDD, 0x00, 0x02, 0x00, 0x02, 0x00]⟩ = .ok (.mtSystem [2, 0, 2, 0]) := by decide
theorem test_decode_mtTare : decode ⟨.hdr, [0xEF, 0xDD, 0x04, 0x00, 0x00]⟩ = .ok (.mtTare [0, 0]) := by decide
theorem test_decode_mtInfo : decode ⟨.hdr, [0xEF, 0xDD, 0x07, 0x01]⟩ = .ok (.mtInfo [1]) := by decide
theorem test_decode_mtStatus : decode ⟨.hdr, [0xEF, 0xDD, 0x08, 0x01]⟩ = .ok (.mtStatus [1]) := by decide
theorem test_decode_mtIdentify : decode ⟨.hdr, [0xEF, 0xDD, 0x0B]⟩ = .ok (.mtIdentify []) := by decide
theorem test_decode_mtEvent : decode ⟨.hdr, [0xEF, 0xDD, 0x0C, 0x09]⟩ = .ok (.mtEvent [9]) := by decide
theorem test_decode_mtTimer : decode ⟨.hdr, [0xEF, 0xDD, 0x0D]⟩ = .ok (.mtTimer []) := by decide
theorem test_decode_evWeight : decode ⟨.evt, [0x05, 0x0A, 0x00, 0x00, 0x00, 0x01, 0x02]⟩ = .ok (.evWeight 0x0A 0 0 0 1 2) := by decide
theorem test_decode_evBattery : decode ⟨.evt, [0x06, 0x64]⟩ = .ok (.evBattery 0x64) := by decide
theorem test_decode_evTimer : decode ⟨.evt, [0x07, 0x01, 0x1E, 0x05]⟩ = .ok (.evTimer 0x01 0x1E 0x05) := by decide
theorem test_decode_evKey : decode ⟨.evt, [0x08, 0x01]⟩ = .ok (.evKey 0x01) := by decide
theorem test_decode_evAck : decode ⟨.evt, [0x0B, 0x00, 0x07]⟩ = .ok (.evAck 0x00 0x07) := by decide
theorem test_decode_fHeartbeat : decode ⟨.txf, [0xEF, 0xDD, 0x00, 0x02, 0x00, 0x02, 0x00]⟩ = .ok .fHeartbeat := by decide
theorem test_decode_fTare : decode ⟨.txf, [0xEF, 0xDD, 0x04, 0x00, 0x00, 0x00]⟩ = .ok .fTare := by decide
theorem test_decode_fTimercmd : decode ⟨.txf, [0xEF, 0xDD, 0x04, 0x00, 0x01, 0x00, 0x01]⟩ = .ok (.fTimercmd 0x01) := by decide
theorem test_decode_fIdentify : decode ⟨.txf, [0xEF, 0xDD, 0x0B, 0x2D, 0x2D, 0x2D, 0x2D, 0x2D, 0x2D, 0x2D, 0x2D, 0x2D, 0x2D, 0x2D,
    0x2D, 0x2D, 0x2D, 0x2D, 0x68, 0x3B]⟩ = .ok .fIdentify := by decide
theorem test_decode_fNotify : decode ⟨.txf, [0xEF, 0xDD, 0x0C, 0x09, 0x00, 0x01, 0x01, 0x05, 0x02, 0x05, 0x03, 0x04, 0x18,
    0x06]⟩ = .ok .fNotify := by decide
theorem test_decode_connect : decode ⟨.op, [0]⟩ = .ok .connect := by decide
theorem test_decode_disconnect : decode ⟨.op, [1]⟩ = .ok .disconnect := by decide
theorem test_decode_feed : decode ⟨.op, [2, 0xEF, 0xDD, 0x0C]⟩ = .ok (.feed [0xEF, 0xDD, 0x0C]) := by decide
theorem test_decode_cksum : decode ⟨.op, [3, 0x02, 0x00]⟩ = .ok (.cksum [2, 0]) := by decide
theorem test_decode_build : decode ⟨.op, [4, 0x00, 0x02, 0x00]⟩ = .ok (.build .system [2, 0]) := by decide
theorem test_decode_wrap : decode ⟨.op, [5, 0x06, 0x64]⟩ = .ok (.wrap [6, 0x64]) := by decide
theorem test_decode_heartbeat : decode ⟨.op, [6, 0x88, 0x13]⟩ = .ok (.heartbeat 5000) := by decide
theorem test_decode_tare : decode ⟨.op, [7]⟩ = .ok .tare := by decide
theorem test_decode_timercmd : decode ⟨.op, [8, 1]⟩ = .ok (.timercmd .stop) := by decide
theorem test_decode_identify : decode ⟨.op, [9]⟩ = .ok .identify := by decide
theorem test_decode_notify : decode ⟨.op, [10]⟩ = .ok .notify := by decide

/-! ### Rejections by name (R85, R87, R132, R133) -/

theorem test_reject_reserved_opsel : decode ⟨.op, [11]⟩ = .error .reservedOpsel ∧ decode ⟨.op, [15]⟩ = .error .reservedOpsel := by decide
theorem test_reject_build_type : decode ⟨.op, [4, 0x01]⟩ = .error .unknownBuildType := by decide
theorem test_reject_wrap_255 : decode ⟨.op, 5 :: List.replicate 255 0xAA⟩ = .error .wrapTooLong := by decide +kernel
theorem test_reject_type : decode ⟨.hdr, [0xEF, 0xDD, 0x0A]⟩ = .error (.badHeader .unknownMessageType) := by decide
theorem test_reject_magic : decode ⟨.hdr, [0xDD, 0xEF, 0x0C]⟩ = .error (.badHeader .invalidHeader) := by decide
theorem test_reject_code : decode ⟨.evt, [0x09, 0x00]⟩ = .error (.badEvent .unknownEventCode) := by decide
theorem test_reject_short_weight : decode ⟨.evt, [0x05, 0x10, 0x00, 0x00, 0x00, 0x02]⟩ = .error (.badEvent .invalidEventLength) := by decide

/-! ### The table's words, run as the first step after power-on (log 13) -/

theorem test_table_mt_event : decodeTableWord 24 0xEFDD0C = some (.mtEvent [0, 0, 0, 0]) := by decide
theorem test_table_ev_weight : decodeTableWord 8 0x05 = some (.evWeight 0 0 0 0 0 0) := by decide
theorem test_table_op_wrap : decodeTableWord 4 0x5 = some (.wrap []) := by decide
theorem test_table_f_tare : decodeTableWord 48 0xEFDD04000000 = some .fTare := by decide
theorem test_first_step_notify :
    (after (step (State.reset.withFetchWord 4 10))).notificationRegistered = true := by decide
theorem test_first_step_info :
    (after (step (State.reset.withFetchWord 24 0xEFDD07))).out = [.dispatch .info [], .tx frameIdentify, .scheduleHeartbeat 4000] := by decide

/-! ### Errors have the codes 1 to 5 (R210, D6) -/

theorem test_error_codes : [ErrKind.invalidHeader, .invalidDataLength, .unknownMessageType, .unknownEventCode,
    .invalidEventLength].map ErrKind.code = [1, 2, 3, 4, 5] := by decide

/-! ### FEED and the frames (95_test_vectors.md V-HDR, V-DAT) -/

theorem test_feed_header_accept : after (exec (.feed [0xEF, 0xDD, 0x0C]) s0) = sData .event := by decide
theorem test_feed_four_byte_header : (after (exec (.feed [0xEF, 0xDD, 0x0C, 0x00]) s0)).out = [.err .invalidHeader] := by decide
/-- V-DAT-13: a header arriving in DATA. -/
theorem test_feed_header_in_data : after (exec (.feed [0xEF, 0xDD, 0x0C]) (sData .event)) =
    { s0 with msgType := some .event, out := [.err .invalidDataLength] } := by decide
/-- V-DAT-15: 256 of the 257 bytes that length byte 0xFF needs; `L + 2` does not wrap. -/
theorem test_feed_no_wrap : (after (exec (.feed (0xFF :: List.replicate 255 0x08)) (sData .event))).out = [.err .invalidDataLength] := by decide +kernel
/-- V-DAT-20. -/
theorem test_mtSystem : after (exec (.mtSystem [0xAA, 0xBB, 0xCC, 0xDD, 0xEE]) s0) =
    { s0 with msgType := some .system, out := [.dispatch .system [0xAA]] } := by decide
/-- V-DAT-22, V-DAT-23. -/
theorem test_mtTare : (after (exec (.mtTare [0]) s0)).out = [.err .invalidDataLength] ∧
    (after (exec (.mtTare [0, 0]) s0)).out = [.dispatch .tare []] := by decide
/-- V-DAT-33: index 4, not the last byte. -/
theorem test_mtInfo : (after (exec (.mtInfo [7, 1, 2, 3, 4, 0x55, 0x66, 0xFF, 0xFF]) s0)).battery = 85 := by decide
/-- V-DAT-34: a 4-byte payload has no index 4. -/
theorem test_mtInfo_short : (after (exec (.mtInfo [5, 1, 2, 3, 4, 0, 0]) { s0 with battery := 9 })).battery = 9 := by decide
/-- V-SRC-8. -/
theorem test_mtStatus : (after (exec (.mtStatus [3, 0xAA, 0xBB, 0, 0]) { s0 with notificationRegistered := true })).out =
    [.dispatch .status [0xAA, 0xBB]] := by decide
/-- V-DAT-25. -/
theorem test_mtIdentify : (after (exec (.mtIdentify [0x2D, 0x2D]) s0)).out = [.dispatch .identify []] := by decide
/-- V-DAT-11: bytes after `L + 2` are ignored. -/
theorem test_mtEvent : after (exec (.mtEvent [3, 6, 0x64, 0, 0, 7, 1, 2, 3]) s0) =
    { s0 with msgType := some .event, battery := 100, out := [.dispatch .event [6, 0x64]] } := by decide
/-- V-DAT-28. -/
theorem test_mtTimer : after (exec (.mtTimer [0xEF, 0xDD, 0x0C]) s0) =
    { s0 with msgType := some .timer, out := [.dispatch .timer []] } := by decide

/-! ### Events (V-SRC-3, V-EV) -/

/-- V-EV-5: little-endian. -/
theorem test_evWeight : (after (exec (.evWeight 1 2 3 0 1 0) s0)).weight = some ⟨false, 197121, 1⟩ := by decide
/-- V-EV-11: unit 0xFF is divisor 1; bit 1 is the sign. -/
theorem test_evWeight_unit : (after (exec (.evWeight 0x64 0 0 0 0xFF 2) s0)).weight = some ⟨true, 100, 0⟩ := by decide
/-- V-SRC-2, the document's own value 0.16. -/
theorem test_weightValue : weightValue ⟨false, 16, 2⟩ = 16 / 100 := by
  simp only [weightValue, show (16 : BitVec 24).toNat = 16 from rfl]; norm_num
theorem test_evBattery : (after (exec (.evBattery 0xFF) s0)).battery = 255 := by decide
theorem test_evTimer : (after (exec (.evTimer 1 30 5) s0)).timer = some ⟨1, 30, 5⟩ := by decide
theorem test_evKey : after (exec (.evKey 1) s0) =
    { s0 with msgType := some .event, out := [.dispatch .event [8, 1]] } := by decide
theorem test_evAck : after (exec (.evAck 0 0) s0) =
    { s0 with msgType := some .event, out := [.dispatch .event [0x0B, 0, 0]] } := by decide
/-- A record that arrives in DATA state is no record: its header chunk is taken as data, its data chunk as a header. -/
theorem test_evBattery_in_data : after (exec (.evBattery 0xFF) (sData .event)) =
    { s0 with msgType := some .event, out := [.err .invalidDataLength, .err .invalidHeader] } := by decide
/-- R226: a body over MAX_PAYLOAD, built by a handler, refuses the whole FEED. -/
theorem test_info_over_maxPayload :
    stop (exec (.feed [1, 0, 0]) { sData .info with params := { params with maxPayload := some 14 } }) =
      some (.inr .payloadTooLong) := by decide
/-- V-EV-30: all five codes in one payload. -/
theorem test_parse_all : parseSequence [0x0B, 1, 2, 8, 5, 7, 0, 0x0A, 1, 6, 0x5A, 5, 0xD2, 4, 0, 0, 1, 0] s0 =
    { s0 with timer := some ⟨0, 10, 1⟩, battery := 90, weight := some ⟨false, 1234, 1⟩ } := by decide
/-- V-EV-34: a stray byte after a weight record is an unknown code. -/
theorem test_parse_stray : parseSequence [5, 0x10, 0, 0, 0, 2, 0, 0] s0 =
    { s0 with weight := some ⟨false, 16, 2⟩, out := [.err .unknownEventCode] } := by decide

/-! ### Checksum and builder (V-CK-12, V-CK-14, V-BLD-6, V-WRP-3) -/

theorem test_cksum : (after (exec (.cksum [1, 2, 3, 4, 5]) s0)).result = some (.checksum 9 6) := by decide
theorem test_build : (after (exec (.build .info [6, 1, 2, 3, 4, 0x55]) s0)).result =
    some (.buffer [0xEF, 0xDD, 0x07, 0x06, 0x01, 0x02, 0x03, 0x04, 0x55, 0x0C, 0x59]) := by decide
theorem test_wrap : (after (exec (.wrap [6, 0x64]) State.reset)).result =
    some (.buffer [0xEF, 0xDD, 0x0C, 0x03, 0x06, 0x64, 0x67, 0x06]) := by decide

/-! ### Session (V-SES, V-ENC) -/

theorem test_connect : after (exec .connect { sData .info with battery := 7, live := false }) = s0 := by decide
theorem test_disconnect : (after (exec .disconnect s0)).live = false ∧ (after (exec .disconnect s0)).out = [.cancelHeartbeat] := by decide
theorem test_refused_without_session : stop (exec .tare State.reset) = some (.inr .notLive) := by decide
theorem test_heartbeat_at_3000 : (after (exec (.heartbeat 3000) s0)).lastHeartbeatTimestampMillis = 3000 := by decide
theorem test_heartbeat_at_2999 : after (exec (.heartbeat 2999) s0) = s0 := by decide
theorem test_tare : (after (exec .tare s0)).out = [.tx [0xEF, 0xDD, 0x04, 0x00, 0x00, 0x00]] := by decide
theorem test_timercmd : (after (exec (.timercmd .stop) s0)).out = [.tx [0xEF, 0xDD, 0x04, 0x00, 0x22, 0x00, 0x22]] := by decide
theorem test_identify : (after (exec .identify s0)).out =
    [.tx ([0xEF, 0xDD, 0x0B] ++ List.replicate 15 0x2D ++ [0x68, 0x3B])] := by decide
theorem test_notify_again : (after (exec .notify { s0 with notificationRegistered := true })).out =
    [.tx [0xEF, 0xDD, 0x0C, 0x09, 0x00, 0x01, 0x01, 0x05, 0x02, 0x05, 0x03, 0x04, 0x18, 0x06]] := by decide
theorem test_fHeartbeat : (after (exec .fHeartbeat s0)).out = [.tx [0xEF, 0xDD, 0x00, 0x02, 0x00, 0x02, 0x00]] := by decide
theorem test_fTimercmd : (after (exec (.fTimercmd 0xFF) s0)).out = [.tx [0xEF, 0xDD, 0x04, 0x00, 0xFF, 0x00, 0xFF]] := by decide
theorem test_fTare : after (exec .fTare s0) = after (exec .tare s0) := by decide
theorem test_fIdentify : after (exec .fIdentify s0) = after (exec .identify s0) := by decide
theorem test_fNotify : after (exec .fNotify s0) = after (exec .notify s0) := by decide
/-- R250: once the request is handed over, a STATUS message does not send it again. -/
theorem test_status_after_fNotify : (after (exec (.mtStatus [1, 0, 0]) (after (exec .fNotify s0)))).out =
    [.tx frameNotify, .dispatch .status []] := by decide

/-! ### Witnesses: for each statement with hypotheses, a state and operands that meet them, each clause at its bound -/

theorem witness_DecodeOfEncode : (Instr.wrap (List.replicate 254 0)).WellFormed ∧ (Instr.heartbeat 0).WellFormed := by decide +kernel
theorem witness_OpselSelects : (List.replicate 254 (0 : Byte)).length ≤ 254 ∧ 11 ≤ (11 : Byte).toNat ∧ (15 : Byte).toNat ≤ 15 ∧
    ({ s0 with inbox := [⟨.op, [11]⟩] } : State).inbox = ⟨.op, 11 :: []⟩ :: [] := by decide +kernel
/-- For DisconnectCancelsAndEndsTheSession, whose only hypothesis is a live session, and for TareAndIdentifySendTheirFrames,
NotifySendsAndRegisters and CommandFramesAreHandedToTheTransport, each clause at its tightest MAX_PAYLOAD. -/
theorem witness_LiveSession : s0.live = true ∧ within (some 1) 1 = true ∧ within (some 2) 2 = true ∧
    within (some 9) 9 = true ∧ within (some 15) 15 = true ∧ within s0.params.maxPayload 15 = true ∧
    fitsBits (some 12) (s0.lastHeartbeatTimestampMillis + 3000) = true ∧
    fitsBits (some 11) (s0.lastHeartbeatTimestampMillis + 3000) = false := by decide
theorem witness_WithoutASession : State.reset.live = false ∧ within State.reset.params.maxPayload 254 = true ∧
    needsSession .fTare = true ∧ (List.replicate 254 (0 : Byte)).length ≤ 254 := by decide +kernel
theorem witness_InputsOverABound : sBounded.live = true ∧ sBounded.params.maxChunk = some 3 ∧ 3 < [1, 2, 3, (4 : Byte)].length ∧
    sBounded.params.maxPayload = some 2 ∧ 2 < [1, 2, (3 : Byte)].length ∧ 2 < [1, (2 : Byte)].length + 1 ∧
    sBounded.params.tsBits = some 4 ∧ 2 ^ 4 ≤ 16 := by decide
theorem witness_HeaderChunkOfAnotherLength : s0.live = true ∧ s0.fstate = .header ∧
    within s0.params.maxChunk [0xEF, (0xDD : Byte)].length = true ∧ [0xEF, (0xDD : Byte)].length ≠ 3 ∧
    within s0.params.maxChunk [0xEF, 0xDD, 0x0C, (0 : Byte)].length = true ∧ [0xEF, 0xDD, 0x0C, (0 : Byte)].length ≠ 3 := by decide
/-- Also under the tightest MAX_CHUNK that takes a header. -/
theorem witness_HeaderFits : sBounded.live = true ∧ sBounded.fstate = .header ∧ within sBounded.params.maxChunk 3 = true := by decide
theorem witness_HeaderChunkWithWrongMagic : s0.live = true ∧ s0.fstate = .header ∧ within s0.params.maxChunk 3 = true ∧
    ((0xEF : Byte) ≠ 0xEF ∨ (0xDC : Byte) ≠ 0xDD) ∧ ((0xEE : Byte) ≠ 0xEF ∨ (0xDD : Byte) ≠ 0xDD) := by decide
theorem witness_HeaderChunkOfUnknownType : s0.live = true ∧ s0.fstate = .header ∧ within s0.params.maxChunk 3 = true ∧
    (0x0E : Byte) ∉ [0x00, 0x04, 0x07, 0x08, 0x0B, 0x0C, 0x0D] ∧ (0xFF : Byte) ∉ [0x00, 0x04, 0x07, 0x08, 0x0B, 0x0C, 0x0D] := by decide
theorem witness_GoodHeaderChunk : s0.live = true ∧ s0.fstate = .header ∧ within s0.params.maxChunk 3 = true ∧
    ((0x00 : Byte), MsgType.system) ∈ [((0x00 : Byte), MsgType.system), (0x0D, .timer)] := by decide
theorem witness_DataChunkShorter_lp_empty : (sData .event).live = true ∧ (sData .event).fstate = .data ∧
    (sData .event).msgType = some .event ∧ within (sData .event).params.maxChunk 0 = true ∧
    MsgType.event ∈ [MsgType.status, .event, .info] := by decide
/-- Length byte 255 with 256 bytes; length byte 0 with 2 bytes. -/
theorem witness_DataChunkShorter_lp : (0xFF :: List.replicate 255 (8 : Byte)).length < max (0xFF : Byte).toNat 1 + 2 ∧
    [0, (0 : Byte)].length < max (0 : Byte).toNat 1 + 2 := by decide +kernel
theorem witness_DataChunkShorter_fx : (sData .system).msgType = some .system ∧ [2, 0, (2 : Byte)].length < 4 := by decide
theorem witness_DataChunkShorter_nl : (sData .timer).msgType = some .timer ∧ MsgType.timer ∈ [MsgType.tare, .identify, .timer] ∧
    [(0 : Byte)].length < 2 := by decide
theorem witness_EveryDataChunk : (sData .info).live = true ∧ (sData .info).fstate = .data ∧ (sData .info).msgType = some .info ∧
    within (sData .info).params.maxChunk [6, 1, 2, 3, 4, 0x55, 0, (0 : Byte)].length = true ∧ handlerFits .info (sData .info) ∧
    handlerFits .status { sData .status with params := { params with maxPayload := some 9 } } ∧
    handlerFits .event { sBounded with fstate := .data, msgType := some .event } := by decide
theorem witness_TrailingBytes_lp : (sData .event).live = true ∧ (sData .event).fstate = .data ∧
    (sData .event).msgType = some .event ∧ MsgType.event ∈ [MsgType.status, .event, .info] ∧
    [3, 6, (0x64 : Byte)].length = max (3 : Byte).toNat 1 ∧ 2 ≤ [0, (0 : Byte)].length ∧ 2 ≤ [0x67, 6, (1 : Byte)].length ∧ handlerFits .event (sData .event) := by decide
theorem witness_TrailingBytes_fx : (sData .system).msgType = some .system ∧ [2, (0 : Byte)].length = 2 := by decide
theorem witness_TrailingBytes_nl : (sData .tare).msgType = some .tare ∧ MsgType.tare ∈ [MsgType.tare, .identify, .timer] := by decide
theorem witness_HeaderValidation : s0.live = true ∧ s0.fstate = .header ∧
    (([] : Buffer).length ≠ 3 ∨ ([] : Buffer).take 2 ≠ [0xEF, 0xDD]) ∧
    ([0xEF, 0xDC, (0x0C : Byte)].length ≠ 3 ∨ [0xEF, 0xDC, (0x0C : Byte)].take 2 ≠ [0xEF, 0xDD]) := by decide
theorem witness_ZeroLengthByte : (sData .status).live = true ∧ (sData .status).fstate = .data ∧
    (sData .status).msgType = some .status ∧ MsgType.status ∈ [MsgType.status, .event, .info] ∧
    within (sData .status).params.maxChunk ([0, (0 : Byte)].length + 1) = true ∧ handlerFits .status (sData .status) := by decide
theorem witness_FramerError_header : exec (.feed []) s0 = .next (after (exec (.feed []) s0)) ∧
    (after (exec (.feed []) s0)).out = s0.out ++ [.err .invalidHeader] := ⟨rfl, rfl⟩
theorem witness_FramerError_data : exec (.feed []) (sData .tare) = .next (after (exec (.feed []) (sData .tare))) ∧
    (after (exec (.feed []) (sData .tare))).out = (sData .tare).out ++ [.err .invalidDataLength] := ⟨rfl, rfl⟩
/-- The state without a latched type that the invariant rules out. -/
theorem witness_FeedFaults : ({ s0 with fstate := .data } : State).msgType = none ∧
    stop (exec (.feed []) { s0 with fstate := .data }) = some (.inl .noLatchedType) := by decide
theorem witness_HeaderChunkArrivingInData : (sData .system).live = true ∧ (sData .system).fstate = .data ∧
    (sData .system).msgType = some .system ∧ within (sData .system).params.maxChunk 3 = true ∧
    MsgType.system ∈ [MsgType.system, .info, .status, .event] ∧ (sData .timer).msgType = some .timer ∧
    MsgType.timer ∈ [MsgType.tare, .identify, .timer] := by decide
theorem witness_FrameIsItsTwoFeeds_next : exec (.feed [0xEF, 0xDD, 0x0D]) s0 = .next (sData .timer) := rfl
theorem witness_FrameIsItsTwoFeeds_fault :
    exec (.feed [0xEF, 0xDD, 0x0D]) { s0 with fstate := .data } = .fault .noLatchedType := rfl
theorem witness_FrameIsItsTwoFeeds_refused : exec (.feed [0xEF, 0xDD, 0x0D]) State.reset = .refused .notLive := rfl
theorem witness_SystemFrame : s0.live = true ∧ s0.fstate = .header ∧ within s0.params.maxChunk 3 = true ∧
    within s0.params.maxChunk 4 = true ∧ 4 ≤ [2, 0, 2, (0 : Byte)].length ∧ [2, 0, (2 : Byte)].length < 4 := by decide
theorem witness_TareIdentifyAndTimer : s0.live = true ∧ s0.fstate = .header ∧ within s0.params.maxChunk 3 = true ∧
    within s0.params.maxChunk 2 = true ∧ 2 ≤ [0, (0 : Byte)].length ∧ [(0 : Byte)].length < 2 := by decide
/-- Length byte 6 with exactly 8 bytes and with 7; length byte 0 with 3 bytes. -/
theorem witness_InfoStatusEventFrames : s0.live = true ∧ s0.fstate = .header ∧ within s0.params.maxChunk 3 = true ∧
    within s0.params.maxChunk 8 = true ∧ max (6 : Byte).toNat 1 + 2 ≤ [1, 2, 3, 4, 0x55, 0, (0 : Byte)].length + 1 ∧
    [1, 2, 3, 4, 0x55, (0 : Byte)].length + 1 < max (6 : Byte).toNat 1 + 2 ∧
    max (0 : Byte).toNat 1 + 2 ≤ [0, (0 : Byte)].length + 1 ∧ within s0.params.maxPayload 15 = true := by decide
theorem witness_StatusFrame : s0.notificationRegistered = false ∧
    ({ s0 with notificationRegistered := true } : State).notificationRegistered = true ∧
    within s0.params.maxPayload 9 = true := by decide
/-- For the records: HEADER of a live session; the tightest MAX_CHUNK that takes each record's data chunk. -/
theorem witness_Records : s0.live = true ∧ s0.fstate = .header ∧ within s0.params.maxChunk 10 = true ∧
    within (some 10) 10 = true ∧ within (some 7) 7 = true ∧ within (some 6) 6 = true ∧ within (some 5) 5 = true ∧
    within s0.params.maxChunk ((EventRecord.battery 5).bytes.length + 3) = true := by decide
theorem witness_EventFrameStops_unknown : s0.live = true ∧ s0.fstate = .header ∧ within s0.params.maxChunk 3 = true ∧
    2 ≤ [0x80, (0x0B : Byte)].length ∧ (0xFF : Byte) ∉ [0x05, 0x06, 0x07, 0x08, 0x0B] ∧
    ([EventRecord.battery 0x64].flatMap EventRecord.bytes ++ (0xFF : Byte) :: [6, 0x32]).length ≤ 254 ∧
    within s0.params.maxChunk (5 + 1 + 2) = true := by decide
theorem witness_EventFrameStops_short : ((0x05 : Byte), 6) ∈ [((0x05 : Byte), 6), (0x06, 1), (0x07, 3), (0x08, 1), (0x0B, 2)] ∧
    [0x10, 0, 0, 0, (2 : Byte)].length < 6 ∧ ((0x06 : Byte), 1) ∈ [((0x05 : Byte), 6), (0x06, 1), (0x07, 3), (0x08, 1), (0x0B, 2)] ∧
    ([] : Buffer).length < 1 := by decide
theorem witness_Built : within s0.params.maxPayload ([] : Buffer).length = true ∧
    within sBounded.params.maxPayload [0, (0xFF : Byte)].length = true := by decide
theorem witness_Wrap : (List.replicate 254 (0xAA : Byte)).length ≤ 254 ∧ within s0.params.maxPayload (254 + 1) = true ∧
    254 < (List.replicate 255 (0xAA : Byte)).length := by decide +kernel
theorem witness_WrapFedBack : s0.live = true ∧ s0.fstate = .header ∧ (List.replicate 254 (8 : Byte)).length ≤ 254 ∧
    within s0.params.maxPayload (254 + 1) = true ∧ within s0.params.maxChunk (254 + 3) = true := by decide +kernel
theorem witness_Heartbeat : s0.live = true ∧ fitsBits s0.params.tsBits 3000 = true ∧
    s0.lastHeartbeatTimestampMillis + 3000 > 2999 ∧ s0.lastHeartbeatTimestampMillis + 3000 ≤ 3000 ∧
    fitsBits sBounded.params.tsBits 15 = true ∧ within sBounded.params.maxPayload 2 = true := by decide
theorem witness_TimerCommand : s0.live = true ∧ within sBounded.params.maxPayload 2 = true ∧
    (TimerCmd.pause, (0x33 : Byte)) ∈ [(TimerCmd.start, s0.params.cmdStart), (.stop, s0.params.cmdStop), (.pause, s0.params.cmdPause)] := by decide
/-- S0 with a stamp and what was put out. -/
def sSent (stamp : Nat) (out : List OutEvent) : State := { s0 with lastHeartbeatTimestampMillis := stamp, out := out }
/-- 10000, then an ignored 12999 and a tare between, then 13000 (V-SRC-6). -/
theorem witness_SentHeartbeats_first : exec (.heartbeat 10000) s0 = .next (sSent 10000 [.tx frameHeartbeat]) ∧
    (sSent 10000 [.tx frameHeartbeat]).out ≠ s0.out :=
  ⟨by rw [exec, execHeartbeat, inSession_live rfl, if_pos (by decide), sendHeartbeat_eq, if_neg (by decide), if_pos (by decide)]; rfl,
    by decide⟩
theorem witness_SentHeartbeats_between : (∀ i ∈ [Instr.heartbeat 12999, .tare], isLifecycle i = false) ∧
    execAll [.heartbeat 12999, .tare] (sSent 10000 [.tx frameHeartbeat]) =
      .next (sSent 10000 [.tx frameHeartbeat, .tx frameTare]) := ⟨by decide, rfl⟩
theorem witness_SentHeartbeats_second : exec (.heartbeat 13000) (sSent 10000 [.tx frameHeartbeat, .tx frameTare]) =
      .next (sSent 13000 [.tx frameHeartbeat, .tx frameTare, .tx frameHeartbeat]) ∧
    (sSent 13000 [.tx frameHeartbeat, .tx frameTare, .tx frameHeartbeat]).out ≠
      (sSent 10000 [.tx frameHeartbeat, .tx frameTare]).out :=
  ⟨by rw [exec, execHeartbeat, inSession_live rfl, if_pos (by decide), sendHeartbeat_eq, if_neg (by decide), if_pos (by decide)]; rfl,
    by decide⟩
/-- Each register changed by one of its writers. -/
theorem witness_RegisterWriters :
    (after (exec .connect State.reset)).live ≠ State.reset.live ∧
    (after (exec (.feed [0xEF, 0xDD, 0]) s0)).fstate ≠ s0.fstate ∧ (after (exec (.evWeight 1 0 0 0 0 0) s0)).weight ≠ s0.weight ∧
    (after (exec (.evBattery 1) s0)).battery ≠ s0.battery ∧ (after (exec (.evTimer 1 2 3) s0)).timer ≠ s0.timer ∧
    (after (exec .notify s0)).notificationRegistered ≠ s0.notificationRegistered ∧
    (after (exec (.heartbeat 3000) s0)).lastHeartbeatTimestampMillis ≠ s0.lastHeartbeatTimestampMillis ∧
    (after (exec (.cksum []) s0)).result ≠ s0.result ∧ (after (exec .disconnect s0)).draws ≠ s0.draws := by decide
theorem witness_NothingIsCleared : (∀ i ∈ [Instr.notify, .evTimer 1 2 3], isLifecycle i = false) ∧
    execAll [.notify, .evTimer 1 2 3] s0 = .next (after (execAll [.notify, .evTimer 1 2 3] s0)) ∧
    registeredFlag { s0 with notificationRegistered := true } = true ∧
    weightPresent { s0 with weight := some ⟨false, 0, 0⟩ } = true ∧ timerPresent { s0 with timer := some ⟨0, 0, 0⟩ } = true :=
  ⟨by decide, rfl, by decide, by decide, by decide⟩
theorem witness_StepRuns : ({ s0 with inbox := [⟨.op, [7]⟩] } : State).inbox = ⟨.op, [7]⟩ :: [] ∧
    decode ⟨.op, [7]⟩ = .ok .tare := by decide
theorem witness_StepIsIdle : State.reset.inbox = [] ∧ s0.inbox = [] := by decide
theorem witness_Unmatched : ({ s0 with inbox := [⟨.hdr, [0xEF, 0xDD, 1]⟩] } : State).inbox = ⟨.hdr, [0xEF, 0xDD, 1]⟩ :: [] ∧
    decode ⟨.hdr, [0xEF, 0xDD, 1]⟩ = .error (.badHeader .unknownMessageType) ∧
    ({ s0 with inbox := [⟨.evt, [9]⟩] } : State).inbox = ⟨.evt, [9]⟩ :: [] ∧
    (List.replicate 254 (9 : Byte)).length ≤ 254 ∧ 254 < (List.replicate 255 (9 : Byte)).length := by decide +kernel
/-- A state in DATA that meets the invariant, and a step from it. -/
theorem witness_Invariant : State.Inv { sData .event with inbox := [⟨.op, [2, 0]⟩] } ∧
    step { sData .event with inbox := [⟨.op, [2, 0]⟩] } = .next (after (step { sData .event with inbox := [⟨.op, [2, 0]⟩] })) :=
  ⟨by decide, rfl⟩
/-- Outputs that are there and legal, and a step from them. -/
theorem witness_OutputsLegal : State.OutputsLegal { s0 with inbox := [⟨.op, [9]⟩], out := [.scheduleHeartbeat 4000] } ∧
    step { s0 with inbox := [⟨.op, [9]⟩], out := [.scheduleHeartbeat 4000] } =
      .next (after (step { s0 with inbox := [⟨.op, [9]⟩], out := [.scheduleHeartbeat 4000] })) :=
  ⟨by simp [State.OutputsLegal, OutEvent.Legal], rfl⟩

/-- Each clause of SessionFramesOverMaxPayloadAreRefused at the largest bound below its frame. -/
theorem witness_SessionFrames :
    (0 < 1 ∧ 1 < 2 ∧ 8 < 9 ∧ 14 < 15) ∧
    ({ s0 with params := { params with maxPayload := some 1 } } : State).params.maxPayload = some 1 ∧
    s0.live = true ∧ fitsBits s0.params.tsBits 3000 = true ∧ s0.lastHeartbeatTimestampMillis + 3000 ≤ 3000 ∧
    (sData .status).fstate = .data ∧ (sData .status).msgType = some .status ∧
    (sData .status).notificationRegistered = false ∧ (sData .info).msgType = some .info ∧
    within (sData .info).params.maxChunk ([0, (0 : Byte)].length + 1) = true ∧
    max (1 : Byte).toNat 1 + 2 ≤ [0, (0 : Byte)].length + 1 := by decide

/-- A request handed over by a handler, and by F_NOTIFY; a heartbeat handed over by HEARTBEAT. -/
theorem witness_Registration :
    (after (exec (.mtStatus [1, 0, 0]) s0)).out = s0.out ++ [.dispatch .status [], .tx frameNotify] ∧
    (after (exec .fNotify s0)).out = s0.out ++ [.tx frameNotify] ∧
    (after (exec (.heartbeat 3000) s0)).out = s0.out ++ [.tx frameHeartbeat] := by decide

end Sys2Proof.Tests
end

section
/-! SUPPORT. The operations of the session under a MAX_PAYLOAD too small for the frame they send: each is refused whole
(log 9; log 14 for the TXF rows). -/

namespace Sys2Proof.Machine

theorem within_eq_false {bound : Option Nat} {m n : Nat} (hm : bound = some m) (h : m < n) : within bound n = false := by
  subst hm
  exact decide_eq_false (by omega)

/-- In a session the gate passes a refusal on. -/
theorem inSession_refused {s : State} {o : Host.Outcome State Fault Refusal} {r : Refusal} (hl : s.live = true)
    (ho : o = .refused r) : inSession s o = .refused r := by
  rw [inSession_live hl, ho]

/-! ### The commands -/

theorem sendTare_refused {s : State} (h : within s.params.maxPayload 1 = false) :
    sendTare s = .refused .payloadTooLong := by
  simp [sendTare_eq, h]

theorem sendTimerCode_refused {s : State} (h : within s.params.maxPayload 2 = false) (c : Byte) :
    sendTimerCode c s = .refused .payloadTooLong := by
  simp [sendTimerCode_eq, h]

theorem sendIdentify_refused {s : State} (h : within s.params.maxPayload 15 = false) :
    sendIdentify s = .refused .payloadTooLong := by
  simp [sendIdentify_eq, h]

theorem sendNotificationRequest_refused {s : State} (h : within s.params.maxPayload 9 = false) :
    sendNotificationRequest s = .refused .payloadTooLong := by
  simp [sendNotificationRequest_eq, h]

theorem sendHeartbeatFrame_refused {s : State} (h : within s.params.maxPayload 2 = false) (now : Nat) :
    sendHeartbeatFrame now s = .refused .payloadTooLong := by
  simp [sendHeartbeatFrame_eq, h]

/-- A heartbeat is refused where it is due (R188); before that no frame is needed. -/
theorem sendHeartbeat_refused {s : State} {now : Nat} (h : within s.params.maxPayload 2 = false)
    (hdue : s.lastHeartbeatTimestampMillis + 3000 ≤ now) : sendHeartbeat now s = .refused .payloadTooLong := by
  simp [sendHeartbeat_eq, h, Nat.not_lt.mpr hdue]

theorem exec_heartbeat_refused {s : State} {now : Nat} (hl : s.live = true)
    (h : within s.params.maxPayload 2 = false) (hbits : fitsBits s.params.tsBits now = true)
    (hdue : s.lastHeartbeatTimestampMillis + 3000 ≤ now) : exec (.heartbeat now) s = .refused .payloadTooLong :=
  inSession_refused hl ((if_pos hbits).trans (sendHeartbeat_refused h hdue))

/-- F_HEARTBEAT is refused for its frame only where some allowed time fits TS_BITS (log 14). -/
theorem exec_fHeartbeat_refused {s : State} (hl : s.live = true) (h : within s.params.maxPayload 2 = false)
    (hbits : fitsBits s.params.tsBits (s.lastHeartbeatTimestampMillis + 3000) = true) :
    exec .fHeartbeat s = .refused .payloadTooLong :=
  inSession_refused hl ((if_pos hbits).trans (sendHeartbeatFrame_refused (s := { s with draws := s.draws + 1 }) h _))

/-! ### The handlers, inside FEED -/

theorem dispatcher_info_refused {s : State} (h : within s.params.maxPayload 15 = false) (p : Buffer) :
    dispatcher .info p s = .refused .payloadTooLong := by
  simp [dispatcher, handleInfo_eq, h]

theorem dispatcher_status_refused {s : State} (h : within s.params.maxPayload 9 = false)
    (hn : s.notificationRegistered = false) (p : Buffer) : dispatcher .status p s = .refused .payloadTooLong := by
  simp [dispatcher, handleStatus_eq, h, hn]

/-- FEED of an accepted length-prefixed data chunk is refused where the latched type's handler is (R105 to R108). -/
theorem exec_feed_lp_refused {s : State} {t : MsgType} {b : Byte} {rest : Buffer} {r : Refusal} (hl : s.live = true)
    (hf : s.fstate = .data) (ht : s.msgType = some t) (hlp : t.shape = .lp)
    (hw : within s.params.maxChunk (rest.length + 1) = true) (hlen : max b.toNat 1 + 2 ≤ rest.length + 1)
    (hd : ∀ p, dispatcher t p (emit (.dispatch t p) s) = .refused r) : exec (.feed (b :: rest)) s = .refused r := by
  have hcut : cutPayload t (b :: rest) = some (rest.take (max b.toNat 1 - 1)) := by
    rw [cutPayload_lp hlp, if_neg (Nat.not_lt.mpr hlen)]
  calc exec (.feed (b :: rest)) s
      = feedData t (b :: rest) s := feedChunk_data hl hw hf ht
    _ = .refused r := by rw [feedData_cut hcut, hd, andThen_refused]

/-! ### The obligation -/

/-- Settles O53: below each threshold `within` fails for the length of the frame's body, so the command or the handler that
builds the frame is refused, and with it the operation it runs in. -/
theorem sessionFramesOverMaxPayloadAreRefused : Obligations.SessionFramesOverMaxPayloadAreRefused := by
  intro s m hl hm
  refine ⟨fun h => ?tare, fun h => ?timerAndHeartbeat, fun h => ?notify, fun h => ?identify⟩
  case tare =>
    have hbody := sendTare_refused (within_eq_false hm h)
    exact ⟨inSession_refused hl hbody, inSession_refused hl hbody⟩
  case timerAndHeartbeat =>
    have hw : within s.params.maxPayload 2 = false := within_eq_false hm h
    exact ⟨fun _ => inSession_refused hl (sendTimerCode_refused hw _),
      fun c => inSession_refused hl (sendTimerCode_refused hw c),
      exec_fHeartbeat_refused hl hw, fun _ => exec_heartbeat_refused hl hw⟩
  case notify =>
    have hw : within s.params.maxPayload 9 = false := within_eq_false hm h
    have hbody := sendNotificationRequest_refused hw
    exact ⟨inSession_refused hl hbody, inSession_refused hl hbody, fun _ _ hf ht hn hc hlen =>
      exec_feed_lp_refused hl hf ht rfl hc hlen fun p => dispatcher_status_refused (s := emit _ s) hw hn p⟩
  case identify =>
    have hw : within s.params.maxPayload 15 = false := within_eq_false hm h
    have hbody := sendIdentify_refused hw
    exact ⟨inSession_refused hl hbody, inSession_refused hl hbody, fun _ _ hf ht hc hlen =>
      exec_feed_lp_refused hl hf ht rfl hc hlen fun p => dispatcher_info_refused (s := emit _ s) hw p⟩

end Sys2Proof.Machine
end

section
/-! SUPPORT. The rules of 10_state.md over every instruction: what a step keeps, who writes which register, what a session
never takes back. A property is proved of FEED's parts once (`FeedClosed`) and of the other instructions by
`exec_rest_cases`. -/

namespace Sys2Proof.Machine

/-! ### The fault of FEED -/

theorem feedChunk_unlatched {chunk : Buffer} {s : State} (hl : s.live = true)
    (hw : within s.params.maxChunk chunk.length = true) (hf : s.fstate = .data) (ht : s.msgType = none) :
    feedChunk chunk s = .fault .noLatchedType := by
  simp [feedChunk, inSession, hl, hw, hf, ht]

/-- Settles O17: `feedChunk_fault` says where FEED faults, and there it does. -/
theorem feedFaultsExactlyWithoutALatchedType : Obligations.FeedFaultsExactlyWithoutALatchedType := by
  intro s chunk r
  constructor
  · intro h
    exact ⟨by cases r; rfl, feedChunk_fault h⟩
  · rintro ⟨rfl, hl, hw, hf, ht⟩
    exact feedChunk_unlatched hl hw hf ht

/-! ### The invariant (R22, R27) -/

theorem fitsBits_zero (bits : Option Nat) : fitsBits bits 0 = true := by
  cases bits with
  | none => rfl
  | some w => exact decide_eq_true (Nat.two_pow_pos w)

theorem raise_inv (k : ErrKind) {s : State} (hs : s.Inv) : (raise k s).Inv := by
  obtain ⟨hlatched, hfits⟩ := hs
  refine ⟨fun hl hf => ?_, by simpa using hfits⟩
  rw [raise_live] at hl
  rw [raise_fstate] at hf
  rw [raise_msgType]
  split at hf
  · cases hf
  · exact hlatched hl hf

/-- A header chunk latches a type as it enters DATA; a data chunk ends in HEADER. -/
theorem feedChunk_inv {chunk : Buffer} {s u : State} (hs : s.Inv) (h : feedChunk chunk s = .next u) : u.Inv := by
  obtain ⟨-, -, ⟨-, rfl⟩ | ⟨-, t, -, h⟩⟩ := feedChunk_next h
  · obtain ⟨t, -, e⟩ | e | e := feedHeader_cases chunk s
    · rw [e]; exact ⟨fun _ _ => Option.some_ne_none t, hs.2⟩
    · rw [e]; exact raise_inv _ hs
    · rw [e]; exact raise_inv _ hs
  · obtain ⟨hf, k⟩ := feedData_keeps h
    refine ⟨fun _ hd => absurd (hf.symm.trans hd) (by decide), ?_⟩
    rw [k.params, k.lastHeartbeatTimestampMillis]
    exact hs.2

/-- CONNECT leaves HEADER and DISCONNECT no session; a heartbeat is stamped with a time that fits; nothing else touches what
the invariant reads. -/
theorem exec_rest_inv {i : Instr} {s u : State} (hi : isFeeding i = false) (hs : s.Inv) (h : exec i s = .next u) :
    u.Inv := by
  obtain ⟨-, rfl⟩ | ⟨-, -, rfl⟩ | ⟨-, r, rfl⟩ | ⟨now, -, -, rfl | ⟨hfits, -, rfl⟩⟩ | ⟨now, -, -, hfits, -, rfl⟩ |
    ⟨-, -, rfl⟩ | ⟨-, f, -, rfl⟩ := exec_rest_cases hi h
  · exact ⟨fun _ hd => absurd hd (by simp), fitsBits_zero _⟩
  · exact ⟨fun hl => absurd hl (by simp), keepBits_fits _ _⟩
  · exact hs
  · exact hs
  · exact ⟨hs.1, hfits⟩
  · exact ⟨hs.1, hfits⟩
  · exact hs
  · exact hs

/-- Settles O50: a fed chunk and every instruction that feeds none keep the invariant, which does not read the inbox. -/
theorem stepKeepsTheInvariant : Obligations.StepKeepsTheInvariant := by
  intro s u hs h
  exact step_preserves (P := State.Inv) (fun _ _ hs => hs) (fun _ _ _ => feedChunk_inv) (fun _ _ _ => exec_rest_inv) hs h

end Sys2Proof.Machine
end

section
/-! SUPPORT. A property of states that the parts of FEED keep is kept by every instruction that feeds chunks. -/

namespace Sys2Proof.Machine

/-- Every part of FEED keeps `P`: the framer's two registers, an error, the Dispatch, and what the handlers of
MT_EVENT, MT_INFO and MT_STATUS do. -/
structure FeedClosed (P : State → Prop) : Prop where
  framer : ∀ s m f, P s → P { s with msgType := m, fstate := f }
  raise : ∀ k s, P s → P (raise k s)
  dispatch : ∀ t p s, P s → P (emit (.dispatch t p) s)
  record : ∀ r s, P s → P (applyRecord r s)
  info : ∀ b s, P s → P { s with battery := b, out := s.out ++ [.tx frameIdentify, .scheduleHeartbeat 4000] }
  status : ∀ s, s.notificationRegistered = false → P s →
    P { s with notificationRegistered := true, out := s.out ++ [.tx frameNotify] }

theorem FeedClosed.dispatcher {P : State → Prop} (hP : FeedClosed P) {t : MsgType} {p : Buffer} {s u : State} (hs : P s)
    (h : dispatcher t p s = .next u) : P u := by
  obtain ⟨-, -, rfl⟩ | ⟨-, hn, -, rfl⟩ | ⟨-, rfl⟩ | ⟨-, rfl⟩ := dispatcher_cases h
  · exact hP.info _ s hs
  · exact hP.status s hn hs
  · exact parseSequence_induct hP.record (fun k s _ => hP.raise k s) p s hs
  · exact hs

theorem FeedClosed.feedData {P : State → Prop} (hP : FeedClosed P) {t : MsgType} {chunk : Buffer} {s u : State} (hs : P s)
    (h : feedData t chunk s = .next u) : P u := by
  obtain ⟨-, rfl⟩ | ⟨p, v, -, hv, rfl⟩ := feedData_next h
  · exact hP.raise _ s hs
  · exact hP.framer v v.msgType .header (hP.dispatcher (hP.dispatch t p s hs) hv)

theorem FeedClosed.feedChunk {P : State → Prop} (hP : FeedClosed P) (chunk : Buffer) (s u : State) (hs : P s)
    (h : feedChunk chunk s = .next u) : P u := by
  obtain ⟨-, -, ⟨-, rfl⟩ | ⟨-, t, -, h⟩⟩ := feedChunk_next h
  · obtain ⟨t, -, e⟩ | e | e := feedHeader_cases chunk s
    · rw [e]; exact hP.framer s (some t) .data hs
    · rw [e]; exact hP.raise _ s hs
    · rw [e]; exact hP.raise _ s hs
  · exact hP.feedData hs h

theorem FeedClosed.exec {P : State → Prop} (hP : FeedClosed P) {i : Instr} {s u : State} (hi : isFeeding i = true)
    (hs : P s) (h : exec i s = .next u) : P u := by
  obtain ⟨c, hc⟩ | ⟨t, d, hc⟩ := exec_feeding hi
  · exact hP.feedChunk c s u hs (hc s ▸ h)
  · exact feedTwo_preserves hP.feedChunk hs (hc s ▸ h)

/-! ### What feeding keeps -/

theorem applyRecord_weight_isSome (r : EventRecord) {s : State} (h : s.weight.isSome = true) :
    (applyRecord r s).weight.isSome = true := by
  cases r with
  | weight => rfl
  | battery | timer | key | ack => exact h

theorem applyRecord_timer_isSome (r : EventRecord) {s : State} (h : s.timer.isSome = true) :
    (applyRecord r s).timer.isSome = true := by
  cases r with
  | timer => rfl
  | weight | battery | key | ack => exact h

/-- `u` comes from `s` by events put out, none of them a heartbeat. -/
def PutsOutNoHeartbeat (s u : State) : Prop := ∃ evs, u.out = s.out ++ evs ∧ .tx frameHeartbeat ∉ evs

theorem PutsOutNoHeartbeat.append {s u v : State} {evs : List OutEvent} (h : PutsOutNoHeartbeat s u)
    (hv : v.out = u.out ++ evs) (hevs : .tx frameHeartbeat ∉ evs) : PutsOutNoHeartbeat s v := by
  obtain ⟨evs', hu, hevs'⟩ := h
  exact ⟨evs' ++ evs, by rw [hv, hu, List.append_assoc], by simp [hevs, hevs']⟩

/-- What no instruction that feeds chunks writes, takes back or puts out. -/
structure KeptByFeeding (s u : State) : Prop where
  live : u.live = s.live
  lastHeartbeatTimestampMillis : u.lastHeartbeatTimestampMillis = s.lastHeartbeatTimestampMillis
  result : u.result = s.result
  params : u.params = s.params
  inbox : u.inbox = s.inbox
  draws : u.draws = s.draws
  registered : s.notificationRegistered = true → u.notificationRegistered = true
  weight : s.weight.isSome = true → u.weight.isSome = true
  timer : s.timer.isSome = true → u.timer.isSome = true
  out : PutsOutNoHeartbeat s u

theorem keptByFeeding_refl (s : State) : KeptByFeeding s s :=
  ⟨rfl, rfl, rfl, rfl, rfl, rfl, id, id, id, [], by simp, by simp⟩

theorem keptByFeeding_feedClosed (s : State) : FeedClosed (KeptByFeeding s) where
  framer _ _ _ h := { h with }
  raise k u h :=
    { live := (raise_live k u).trans h.live
      lastHeartbeatTimestampMillis := (raise_lastHeartbeatTimestampMillis k u).trans h.lastHeartbeatTimestampMillis
      result := (raise_result k u).trans h.result
      params := (raise_params k u).trans h.params
      inbox := (raise_inbox k u).trans h.inbox
      draws := (raise_draws k u).trans h.draws
      registered := by simpa using h.registered
      weight := by simpa using h.weight
      timer := by simpa using h.timer
      out := h.out.append (raise_out k u) (by simp) }
  dispatch t p u h := { h with out := h.out.append (emit_out _ u) (by simp) }
  record r u h :=
    { live := (applyRecord_live r u).trans h.live
      lastHeartbeatTimestampMillis :=
        (applyRecord_lastHeartbeatTimestampMillis r u).trans h.lastHeartbeatTimestampMillis
      result := (applyRecord_result r u).trans h.result
      params := (applyRecord_params r u).trans h.params
      inbox := (applyRecord_inbox r u).trans h.inbox
      draws := (applyRecord_draws r u).trans h.draws
      registered := by simpa using h.registered
      weight := fun hs => applyRecord_weight_isSome r (h.weight hs)
      timer := fun hs => applyRecord_timer_isSome r (h.timer hs)
      out := h.out.append (evs := []) (by simp) (by simp) }
  info _ _ h := { h with out := h.out.append rfl (by decide) }
  status _ _ h := { h with registered := fun _ => rfl, out := h.out.append rfl (by decide) }

theorem exec_keptByFeeding {i : Instr} {s u : State} (hi : isFeeding i = true) (h : exec i s = .next u) :
    KeptByFeeding s u :=
  (keptByFeeding_feedClosed s).exec hi (keptByFeeding_refl s) h

end Sys2Proof.Machine
end

section
/-! SUPPORT. The data registers a feeding instruction can write (R20): those of the handler of its type, and of a
record its own. -/

namespace Sys2Proof.Machine

/-- The instruction of a frame of the type (R112 to R118), as `EventRecord.toInstr` is that of a record. -/
def frameInstr : MsgType → Buffer → Instr
  | .system, d => .mtSystem d
  | .tare, d => .mtTare d
  | .info, d => .mtInfo d
  | .status, d => .mtStatus d
  | .identify, d => .mtIdentify d
  | .event, d => .mtEvent d
  | .timer, d => .mtTimer d

theorem exec_frameInstr (t : MsgType) (d : Buffer) (s : State) :
    exec (frameInstr t d) s = feedTwo (headerChunk t) d s := by
  cases t <;> rfl

/-- A feeding instruction is FEED, a frame or a record. -/
theorem isFeeding_cases {i : Instr} (hi : isFeeding i = true) :
    (∃ c, i = .feed c) ∨ (∃ t d, i = frameInstr t d) ∨ ∃ r : EventRecord, i = r.toInstr := by
  cases i with
  | feed c => exact .inl ⟨c, rfl⟩
  | mtSystem d => exact .inr (.inl ⟨.system, d, rfl⟩)
  | mtTare d => exact .inr (.inl ⟨.tare, d, rfl⟩)
  | mtInfo d => exact .inr (.inl ⟨.info, d, rfl⟩)
  | mtStatus d => exact .inr (.inl ⟨.status, d, rfl⟩)
  | mtIdentify d => exact .inr (.inl ⟨.identify, d, rfl⟩)
  | mtEvent d => exact .inr (.inl ⟨.event, d, rfl⟩)
  | mtTimer d => exact .inr (.inl ⟨.timer, d, rfl⟩)
  | evWeight b0 b1 b2 b3 b4 b5 => exact .inr (.inr ⟨.weight b0 b1 b2 b3 b4 b5, rfl⟩)
  | evBattery level => exact .inr (.inr ⟨.battery level, rfl⟩)
  | evTimer minutes seconds millis => exact .inr (.inr ⟨.timer minutes seconds millis, rfl⟩)
  | evKey v => exact .inr (.inr ⟨.key v, rfl⟩)
  | evAck v0 v1 => exact .inr (.inr ⟨.ack v0 v1, rfl⟩)
  | _ => cases hi

/-- The types whose handler writes each data register. -/
structure WritersByType (t : MsgType) (s u : State) : Prop where
  weight : u.weight = s.weight ∨ t = .event
  battery : u.battery = s.battery ∨ t = .info ∨ t = .event
  timer : u.timer = s.timer ∨ t = .event
  registered : u.notificationRegistered = s.notificationRegistered ∨ t = .status

theorem writersByType_of_eq {t : MsgType} {s u : State} (hw : u.weight = s.weight) (hb : u.battery = s.battery)
    (htm : u.timer = s.timer) (hn : u.notificationRegistered = s.notificationRegistered) : WritersByType t s u :=
  ⟨.inl hw, .inl hb, .inl htm, .inl hn⟩

theorem dispatcher_writersByType {t : MsgType} {p : Buffer} {s u : State} (h : dispatcher t p s = .next u) :
    WritersByType t s u := by
  obtain ⟨ht, -, rfl⟩ | ⟨ht, -, -, rfl⟩ | ⟨ht, rfl⟩ | ⟨-, rfl⟩ := dispatcher_cases h
  · exact ⟨.inl rfl, .inr (.inl ht), .inl rfl, .inl rfl⟩
  · exact ⟨.inl rfl, .inl rfl, .inl rfl, .inr ht⟩
  · exact ⟨.inr ht, .inr (.inr ht), .inr ht, .inl (by simp)⟩
  · exact writersByType_of_eq rfl rfl rfl rfl

theorem feedData_writersByType {t : MsgType} {d : Buffer} {s u : State} (h : feedData t d s = .next u) :
    WritersByType t s u := by
  obtain ⟨-, rfl⟩ | ⟨p, v, -, hv, rfl⟩ := feedData_next h
  · exact writersByType_of_eq (by simp) (by simp) (by simp) (by simp)
  · exact { dispatcher_writersByType hv with }

/-- In DATA state a frame's header chunk is data and its data chunk a header, so no handler of its own type runs. -/
theorem exec_frameInstr_writersByType {t : MsgType} {d : Buffer} {s u : State}
    (h : exec (frameInstr t d) s = .next u) : WritersByType t s u := by
  rw [exec_frameInstr] at h
  obtain ⟨-, ⟨-, h⟩ | ⟨-, f, m, evs, rfl⟩⟩ := feedTwo_headerChunk_cases h
  · exact { feedData_writersByType h with }
  · exact writersByType_of_eq rfl rfl rfl rfl

/-- The registers a record can write: its own (R135 to R139). -/
structure WritersByRecord (r : EventRecord) (s u : State) : Prop where
  weight : u.weight = s.weight ∨ ∃ b0 b1 b2 b3 b4 b5, r = .weight b0 b1 b2 b3 b4 b5
  battery : u.battery = s.battery ∨ ∃ level, r = .battery level
  timer : u.timer = s.timer ∨ ∃ minutes seconds millis, r = .timer minutes seconds millis
  registered : u.notificationRegistered = s.notificationRegistered

theorem applyRecord_writersByRecord (r : EventRecord) (s : State) : WritersByRecord r s (applyRecord r s) := by
  cases r with
  | weight b0 b1 b2 b3 b4 b5 => exact ⟨.inr ⟨b0, b1, b2, b3, b4, b5, rfl⟩, .inl rfl, .inl rfl, rfl⟩
  | battery level => exact ⟨.inl rfl, .inr ⟨level, rfl⟩, .inl rfl, rfl⟩
  | timer minutes seconds millis => exact ⟨.inl rfl, .inl rfl, .inr ⟨minutes, seconds, millis, rfl⟩, rfl⟩
  | key | ack => exact ⟨.inl rfl, .inl rfl, .inl rfl, rfl⟩

/-- The payload of a record's data chunk is the record alone, so the data chunk applies it. -/
theorem feedData_record {r : EventRecord} {s u : State} (h : feedData .event (eventChunk r.bytes) s = .next u) :
    u = { applyRecord r (emit (.dispatch .event r.bytes) s) with fstate := .header } := by
  have hb : r.bytes.length ≤ 254 := by cases r <;> simp [EventRecord.bytes, EventRecord.body]
  have hp := parseSequence_record r [] (emit (.dispatch .event r.bytes) s)
  rw [List.append_nil, parseSequence_nil] at hp
  rw [feedData_cut (cutPayload_eventChunk hb), dispatcher, andThen_next, hp] at h
  injection h with h
  exact h.symm

theorem exec_record_writersByRecord {r : EventRecord} {s u : State} (h : exec r.toInstr s = .next u) :
    WritersByRecord r s u := by
  rw [exec_record] at h
  obtain ⟨-, ⟨-, h⟩ | ⟨-, f, m, evs, rfl⟩⟩ := feedTwo_headerChunk_cases h
  · rw [feedData_record h]
    exact { applyRecord_writersByRecord r (emit (.dispatch .event r.bytes) _) with }
  · exact ⟨.inl rfl, .inl rfl, .inl rfl, rfl⟩

/-! ### The writers among the feeding instructions -/

theorem exec_feeding_weight {i : Instr} {s u : State} (hi : isFeeding i = true) (h : exec i s = .next u) :
    u.weight = s.weight ∨ (∃ c, i = .feed c) ∨ (∃ d, i = .mtEvent d) ∨
      ∃ b0 b1 b2 b3 b4 b5, i = .evWeight b0 b1 b2 b3 b4 b5 := by
  obtain ⟨c, rfl⟩ | ⟨t, d, rfl⟩ | ⟨r, rfl⟩ := isFeeding_cases hi
  · exact .inr (.inl ⟨c, rfl⟩)
  · obtain hkept | rfl := (exec_frameInstr_writersByType h).weight
    · exact .inl hkept
    · exact .inr (.inr (.inl ⟨d, rfl⟩))
  · exact (exec_record_writersByRecord h).weight.imp_right fun ⟨b0, b1, b2, b3, b4, b5, hr⟩ =>
      .inr (.inr ⟨b0, b1, b2, b3, b4, b5, hr ▸ rfl⟩)

theorem exec_feeding_battery {i : Instr} {s u : State} (hi : isFeeding i = true) (h : exec i s = .next u) :
    u.battery = s.battery ∨ (∃ c, i = .feed c) ∨ (∃ d, i = .mtEvent d) ∨ (∃ d, i = .mtInfo d) ∨
      ∃ level, i = .evBattery level := by
  obtain ⟨c, rfl⟩ | ⟨t, d, rfl⟩ | ⟨r, rfl⟩ := isFeeding_cases hi
  · exact .inr (.inl ⟨c, rfl⟩)
  · obtain hkept | rfl | rfl := (exec_frameInstr_writersByType h).battery
    · exact .inl hkept
    · exact .inr (.inr (.inr (.inl ⟨d, rfl⟩)))
    · exact .inr (.inr (.inl ⟨d, rfl⟩))
  · exact (exec_record_writersByRecord h).battery.imp_right fun ⟨level, hr⟩ =>
      .inr (.inr (.inr ⟨level, hr ▸ rfl⟩))

theorem exec_feeding_timer {i : Instr} {s u : State} (hi : isFeeding i = true) (h : exec i s = .next u) :
    u.timer = s.timer ∨ (∃ c, i = .feed c) ∨ (∃ d, i = .mtEvent d) ∨
      ∃ minutes seconds millis, i = .evTimer minutes seconds millis := by
  obtain ⟨c, rfl⟩ | ⟨t, d, rfl⟩ | ⟨r, rfl⟩ := isFeeding_cases hi
  · exact .inr (.inl ⟨c, rfl⟩)
  · obtain hkept | rfl := (exec_frameInstr_writersByType h).timer
    · exact .inl hkept
    · exact .inr (.inr (.inl ⟨d, rfl⟩))
  · exact (exec_record_writersByRecord h).timer.imp_right fun ⟨minutes, seconds, millis, hr⟩ =>
      .inr (.inr ⟨minutes, seconds, millis, hr ▸ rfl⟩)

theorem exec_feeding_registered {i : Instr} {s u : State} (hi : isFeeding i = true) (h : exec i s = .next u) :
    u.notificationRegistered = s.notificationRegistered ∨ (∃ c, i = .feed c) ∨ ∃ d, i = .mtStatus d := by
  obtain ⟨c, rfl⟩ | ⟨t, d, rfl⟩ | ⟨r, rfl⟩ := isFeeding_cases hi
  · exact .inr (.inl ⟨c, rfl⟩)
  · obtain hkept | rfl := (exec_frameInstr_writersByType h).registered
    · exact .inl hkept
    · exact .inr (.inr ⟨d, rfl⟩)
  · exact .inl (exec_record_writersByRecord h).registered

/-- Settles O44: a feeding instruction writes by its type or its record and keeps the rest (`exec_keptByFeeding`); of the
others `exec_rest_cases` names the whole effect. -/
theorem registersHaveOnlyTheirWriters : Obligations.RegistersHaveOnlyTheirWriters := by
  intro i s u h
  cases hi : isFeeding i with
  | true =>
    have k := exec_keptByFeeding hi h
    obtain ⟨evs, hout, -⟩ := k.out
    refine ⟨absurd k.live, fun _ => .inl rfl, fun hne => .inr ((exec_feeding_weight hi h).resolve_left hne),
      fun hne => .inr ((exec_feeding_battery hi h).resolve_left hne),
      fun hne => .inr ((exec_feeding_timer hi h).resolve_left hne), fun hne => ?_,
      absurd k.lastHeartbeatTimestampMillis, absurd k.result, absurd k.draws, k.params, k.inbox, evs, hout⟩
    exact .inr (((exec_feeding_registered hi h).resolve_left hne).imp_right .inl)
  | false =>
    obtain ⟨rfl, rfl⟩ | ⟨rfl, -, rfl⟩ | ⟨hpure, r, rfl⟩ | ⟨now, rfl, -, rfl | ⟨-, -, rfl⟩⟩ | ⟨now, rfl, -, -, -, rfl⟩ |
      ⟨hnotify, -, rfl⟩ | ⟨-, f, -, rfl⟩ := exec_rest_cases hi h
    · simp [isLifecycle]
    · simp [isLifecycle]
    · simp [hpure]
    · simp
    · simp
    · simp
    · obtain rfl | rfl := hnotify <;> simp
    · simp

end Sys2Proof.Machine
end

section
/-! SUPPORT. What only grows while a session runs (R26, R27, R28, R33), and the times of the heartbeats sent (R188). -/

namespace Sys2Proof.Machine

/-- `u` comes after `s` in the same session: nothing that was set is cleared, and the stamp is no earlier. -/
structure Advances (s u : State) : Prop where
  live : u.live = s.live
  registered : registeredFlag s = true → registeredFlag u = true
  weight : weightPresent s = true → weightPresent u = true
  timer : timerPresent s = true → timerPresent u = true
  stamp : s.lastHeartbeatTimestampMillis ≤ u.lastHeartbeatTimestampMillis

theorem Advances.refl (s : State) : Advances s s := ⟨rfl, id, id, id, le_rfl⟩

theorem Advances.trans {s u v : State} (h : Advances s u) (h' : Advances u v) : Advances s v :=
  ⟨h'.live.trans h.live, h'.registered ∘ h.registered, h'.weight ∘ h.weight, h'.timer ∘ h.timer, h.stamp.trans h'.stamp⟩

theorem KeptByFeeding.advances {s u : State} (k : KeptByFeeding s u) : Advances s u :=
  ⟨k.live, k.registered, k.weight, k.timer, k.lastHeartbeatTimestampMillis.ge⟩

/-- Only a sent heartbeat moves the stamp, and only NOTIFY and its frame the flag, each forward. -/
theorem exec_advances {i : Instr} {s u : State} (hi : isLifecycle i = false) (h : exec i s = .next u) : Advances s u := by
  cases hf : isFeeding i with
  | true => exact (exec_keptByFeeding hf h).advances
  | false =>
    obtain ⟨rfl, -⟩ | ⟨rfl, -⟩ | ⟨-, r, rfl⟩ | ⟨now, -, -, rfl | ⟨-, hnow, rfl⟩⟩ | ⟨now, -, -, -, hnow, rfl⟩ | ⟨-, -, rfl⟩ |
      ⟨-, f, -, rfl⟩ := exec_rest_cases hf h
    · cases hi
    · cases hi
    · exact { Advances.refl s with }
    · exact Advances.refl _
    · exact { Advances.refl s with stamp := Nat.le_of_add_right_le hnow }
    · exact { Advances.refl s with stamp := Nat.le_of_add_right_le hnow }
    · exact { Advances.refl s with registered := fun _ => rfl }
    · exact { Advances.refl s with }

theorem execAll_advances {is : List Instr} {s u : State} (his : ∀ i ∈ is, isLifecycle i = false)
    (h : execAll is s = .next u) : Advances s u := by
  induction is generalizing s with
  | nil => injection h with h; exact h ▸ Advances.refl s
  | cons i is ih =>
    obtain ⟨hi, his⟩ := List.forall_mem_cons.mp his
    obtain ⟨v, hv, h⟩ := andThen_eq_next h
    exact (exec_advances hi hv).trans (ih his h)

/-- Settles O45: every instruction of the run advances the session, and advancing is transitive. -/
theorem nothingIsClearedWithinASession : Obligations.NothingIsClearedWithinASession := by
  intro is s u his h
  obtain ⟨hlive, hregistered, hweight, htimer, hstamp⟩ := execAll_advances his h
  exact ⟨hlive, hregistered, hweight, htimer, hstamp⟩

/-! ### Sent heartbeats -/

/-- HEARTBEAT puts something out only by sending: it was due, and its time is the new stamp. -/
theorem exec_heartbeat_sent {now : Nat} {s u : State} (h : exec (.heartbeat now) s = .next u) (hout : u.out ≠ s.out) :
    s.lastHeartbeatTimestampMillis + 3000 ≤ now ∧ u.lastHeartbeatTimestampMillis = now := by
  obtain ⟨-, h⟩ := inSession_next h
  split at h
  · rw [sendHeartbeat_eq] at h
    split at h
    · injection h with h
      exact absurd (h ▸ rfl) hout
    · split at h
      · injection h with h
        exact ⟨by omega, h ▸ rfl⟩
      · cases h
  · cases h

/-- Settles O43: the first heartbeat leaves its time as the stamp, the run does not set the stamp back, and the second is due
only 3000 ms above it. -/
theorem sentHeartbeatsAreThreeSecondsApart : Obligations.SentHeartbeatsAreThreeSecondsApart := by
  intro s s1 s2 s3 a b is ha houta his hrun hb houtb
  obtain ⟨-, hstamp⟩ := exec_heartbeat_sent ha houta
  obtain ⟨hdue, -⟩ := exec_heartbeat_sent hb houtb
  calc a + 3000 = s1.lastHeartbeatTimestampMillis + 3000 := by rw [hstamp]
    _ ≤ s2.lastHeartbeatTimestampMillis + 3000 := Nat.add_le_add_right (execAll_advances his hrun).stamp 3000
    _ ≤ b := hdue

/-- Settles O56: a feeding instruction puts out no heartbeat; of the others only HEARTBEAT and F_HEARTBEAT do, each at a
time that R188 allows. -/
theorem sentHeartbeatsAdvanceTheStamp : Obligations.SentHeartbeatsAdvanceTheStamp := by
  intro i s u h
  cases hi : isFeeding i with
  | true =>
    obtain ⟨evs, hout, hevs⟩ := (exec_keptByFeeding hi h).out
    exact ⟨evs, hout, fun hmem => absurd hmem hevs⟩
  | false =>
    obtain ⟨-, rfl⟩ | ⟨-, -, rfl⟩ | ⟨-, r, rfl⟩ | ⟨now, rfl, -, rfl | ⟨-, hnow, rfl⟩⟩ | ⟨now, rfl, -, -, hnow, rfl⟩ |
      ⟨-, -, rfl⟩ | ⟨-, f, hf, rfl⟩ := exec_rest_cases hi h
    · exact ⟨[], by simp, by simp⟩
    · exact ⟨[.cancelHeartbeat], rfl, by simp⟩
    · exact ⟨[], by simp, by simp⟩
    · exact ⟨[], by simp, by simp⟩
    · exact ⟨[.tx frameHeartbeat], rfl, fun _ => ⟨hnow, .inr rfl⟩⟩
    · exact ⟨[.tx frameHeartbeat], rfl, fun _ => ⟨hnow, .inl rfl⟩⟩
    · exact ⟨[.tx frameNotify], rfl, fun hmem => absurd hmem (by decide)⟩
    · obtain ⟨-, hne, -⟩ := sentFrame_some hf
      exact ⟨[.tx f], rfl, fun hmem => absurd (OutEvent.tx.inj (List.mem_singleton.mp hmem)).symm hne⟩

end Sys2Proof.Machine
end

section
/-! SUPPORT. What a step takes from the inbox (log 1) and what it then runs (R61). -/

namespace Sys2Proof.Machine

/-- A nonempty inbox hands over its first delivery, and the state keeps the others. -/
theorem fetch_eq_of_inbox_cons {s : State} {d : Delivery} {rest : List Delivery} (h : s.inbox = d :: rest) :
    fetch s = some (d, { s with inbox := rest }) := by
  simp only [fetch, h]

/-- Of a fetched delivery that decodes the step runs the instruction, on the state the fetch leaves. -/
theorem step_eq_exec_of_decode_ok {s s' : State} {d : Delivery} {i : Instr} (hf : fetch s = some (d, s'))
    (hd : decode d = .ok i) : step s = exec i s' := by
  simp only [step, hf, hd]

/-- Settles O46: the first delivery is what the step fetches, and what it decodes to is what the step runs. -/
theorem stepRunsTheDecodedInstruction : Obligations.StepRunsTheDecodedInstruction := by
  intro s d rest i hinbox hdecode
  exact step_eq_exec_of_decode_ok (fetch_eq_of_inbox_cons hinbox) hdecode

end Sys2Proof.Machine
end

section
/-! SUPPORT. The encoder and the decoder against each other (30_encoding.md): what the decoder reads in each format, and the
round trip. -/

namespace Sys2Proof.Machine

/-! ### Format HDR -/

/-- A frame delivery that begins with a type's header chunk is that type's frame (R71, R90). -/
theorem decodeHdr_headerChunk_append (t : MsgType) (d : Buffer) :
    decodeHdr (headerChunk t ++ d) = .ok (frameInstr t d) := by
  have htake : (headerChunk t ++ d).take 3 = headerChunk t := rfl
  rw [decodeHdr, htake, decodeHeader_headerChunk]
  cases t <;> rfl

/-- The decoder refuses a frame delivery only for its header chunk (R90). -/
theorem decodeHdr_error {bytes : Buffer} {e : DecodeError} (h : decodeHdr bytes = .error e) : ∃ k, e = .badHeader k := by
  unfold decodeHdr at h
  split at h
  · injection h with h; exact ⟨_, h.symm⟩
  all_goals cases h

/-! ### Format TXF -/

/-- None of the four fixed frames, which are tried first, is a timer command: the heartbeat has another type byte, the
others another length (R83). -/
theorem decodeTxf_frameTimercmd (c : Byte) : decodeTxf (frameTimercmd c) = .ok (.fTimercmd c) := by
  have hheartbeat : frameTimercmd c ≠ frameHeartbeat := by simp [frameTimercmd, frameHeartbeat]
  have htare : frameTimercmd c ≠ frameTare := by simp [frameTimercmd, frameTare]
  have hidentify : frameTimercmd c ≠ frameIdentify := by simp [frameTimercmd, frameIdentify]
  have hnotify : frameTimercmd c ≠ frameNotify := by simp [frameTimercmd, frameNotify]
  rw [decodeTxf, if_neg hheartbeat, if_neg htare, if_neg hidentify, if_neg hnotify]
  exact if_pos rfl

/-! ### Format OP -/

theorem decodeOpsel_build (t : MsgType) (p : Buffer) : decodeOpsel 4 (t.code :: p) = .ok (.build t p) := by
  simp [decodeOpsel, ofCode_code]

theorem decodeOpsel_wrap {ep : Buffer} (h : ep.length ≤ Config.maxWrap) : decodeOpsel 5 ep = .ok (.wrap ep) :=
  if_pos h

theorem decodeOpsel_heartbeat (now : Nat) : decodeOpsel 6 (natBytes now) = .ok (.heartbeat now) := by
  simp [decodeOpsel]

theorem decodeOpsel_timercmd (cmd : TimerCmd) : decodeOpsel 8 [cmd.index] = .ok (.timercmd cmd) := by
  simp [decodeOpsel, ofIndex_index]

/-- The select codes of no operation (R87). -/
theorem decodeOpsel_reserved {n : Nat} (hlo : 11 ≤ n) (hhi : n ≤ 15) (operands : Buffer) :
    decodeOpsel n operands = .error .reservedOpsel := by
  interval_cases n <;> rfl

/-! ### The round trip -/

/-- Settles O1: format by format, the decoder reads back the code or the frame the encoder wrote, and then the operands. -/
theorem decodeOfEncodeIsTheInstruction : Obligations.DecodeOfEncodeIsTheInstruction := by
  intro i hwf
  cases i with
  | mtSystem d => exact decodeHdr_headerChunk_append .system d
  | mtTare d => exact decodeHdr_headerChunk_append .tare d
  | mtInfo d => exact decodeHdr_headerChunk_append .info d
  | mtStatus d => exact decodeHdr_headerChunk_append .status d
  | mtIdentify d => exact decodeHdr_headerChunk_append .identify d
  | mtEvent d => exact decodeHdr_headerChunk_append .event d
  | mtTimer d => exact decodeHdr_headerChunk_append .timer d
  | evWeight b0 b1 b2 b3 b4 b5 => exact decodeEvt_bytes (.weight b0 b1 b2 b3 b4 b5)
  | evBattery level => exact decodeEvt_bytes (.battery level)
  | evTimer minutes seconds millis => exact decodeEvt_bytes (.timer minutes seconds millis)
  | evKey v => exact decodeEvt_bytes (.key v)
  | evAck v0 v1 => exact decodeEvt_bytes (.ack v0 v1)
  | fHeartbeat | fTare | fIdentify | fNotify => rfl
  | fTimercmd c => exact decodeTxf_frameTimercmd c
  | connect | disconnect | tare | identify | notify => rfl
  | feed chunk => rfl
  | cksum p => rfl
  | build t p => exact decodeOpsel_build t p
  | wrap ep => exact decodeOpsel_wrap (of_decide_eq_true hwf)
  | heartbeat now => exact decodeOpsel_heartbeat now
  | timercmd cmd => exact decodeOpsel_timercmd cmd

/-- Settles O2: each of the four deliveries is the encoding of its instruction. -/
theorem wordsOfTheSpecDecode : Obligations.WordsOfTheSpecDecode :=
  ⟨decodeOfEncodeIsTheInstruction (.mtEvent [0x03, 0x06, 0x64, 0x00, 0x00]) rfl,
    decodeOfEncodeIsTheInstruction (.evWeight 0x10 0 0 0 2 0) rfl,
    decodeOfEncodeIsTheInstruction (.fTimercmd 0xFF) rfl,
    decodeOfEncodeIsTheInstruction (.feed [0xEF, 0xDD, 0x0C]) rfl⟩

/-! ### A step on a delivery that decodes to no instruction -/

theorem step_eq_runUndecoded_of_decode_error {s s' : State} {d : Delivery} {e : DecodeError}
    (hf : fetch s = some (d, s')) (hd : decode d = .error e) : step s = runUndecoded d e s' := by
  simp only [step, hf, hd]

/-- Settles O3: each delivery listed is the encoding of its operation; the reserved codes decode to none, and the step
refuses them. -/
theorem opselSelectsTheOperation : Obligations.OpselSelectsTheOperation := by
  have roundTrip := decodeOfEncodeIsTheInstruction
  refine ⟨roundTrip .connect rfl, roundTrip .disconnect rfl, fun c => roundTrip (.feed c) rfl,
    fun p => roundTrip (.cksum p) rfl, fun t p => roundTrip (.build t p) rfl,
    fun ep h => roundTrip (.wrap ep) (decide_eq_true h), fun n => roundTrip (.heartbeat n) rfl, roundTrip .tare rfl,
    roundTrip (.timercmd .start) rfl, roundTrip (.timercmd .stop) rfl, roundTrip (.timercmd .pause) rfl,
    roundTrip .identify rfl, roundTrip .notify rfl, ?_⟩
  intro s k operands rest hlo hhi hinbox
  have hdecode : decode ⟨.op, k :: operands⟩ = .error .reservedOpsel := decodeOpsel_reserved hlo hhi operands
  exact step_eq_runUndecoded_of_decode_error (fetch_eq_of_inbox_cons hinbox) hdecode

end Sys2Proof.Machine
end

section
/-! SUPPORT. Frames and event deliveries as the FEEDs they stand for (R87, R88; log 2, log 3). -/

namespace Sys2Proof.Machine

/-! ### Frames -/

/-- A frame is FEED of its header chunk and then FEED of its data chunk (R88). -/
theorem exec_frameInstr_eq_feeds (t : MsgType) (d : Buffer) (s : State) :
    exec (frameInstr t d) s = andThen (exec (.feed (headerChunk t)) s) (exec (.feed d)) :=
  exec_frameInstr t d s

/-- Settles O19: each row is a type's frame, which is its two FEEDs (`exec_frameInstr_eq_feeds`); what follows a FEED that
stops is not run. -/
theorem frameIsItsTwoFeeds : Obligations.FrameIsItsTwoFeeds := by
  intro s d i b hrow
  have hframe : ∃ t, i = frameInstr t d ∧ [0xEF, 0xDD, b] = headerChunk t := by
    simp only [List.mem_cons, Prod.mk.injEq, List.not_mem_nil, or_false] at hrow
    obtain ⟨rfl, rfl⟩ | ⟨rfl, rfl⟩ | ⟨rfl, rfl⟩ | ⟨rfl, rfl⟩ | ⟨rfl, rfl⟩ | ⟨rfl, rfl⟩ | ⟨rfl, rfl⟩ := hrow
    · exact ⟨.system, rfl, rfl⟩
    · exact ⟨.tare, rfl, rfl⟩
    · exact ⟨.info, rfl, rfl⟩
    · exact ⟨.status, rfl, rfl⟩
    · exact ⟨.identify, rfl, rfl⟩
    · exact ⟨.event, rfl, rfl⟩
    · exact ⟨.timer, rfl, rfl⟩
  obtain ⟨t, rfl, hchunk⟩ := hframe
  rw [hchunk, exec_frameInstr_eq_feeds]
  refine ⟨fun s1 h => ?_, fun r h => ?_, fun r h => ?_⟩
  · rw [h, andThen_next]
  · rw [h, andThen_fault]
  · rw [h, andThen_refused]

/-! ### Records -/

/-- A record is at most a code byte and the six bytes of a weight (R76). -/
theorem record_bytes_length_le (r : EventRecord) : r.bytes.length ≤ 7 := by
  cases r <;> simp [EventRecord.bytes, EventRecord.body]

/-- The length byte of a payload that fits a frame is not cut off (R82). -/
theorem lengthByte_toNat {n : Nat} (h : n ≤ 254) : (BitVec.ofNat 8 (n + 1)).toNat = n + 1 := by
  rw [BitVec.toNat_ofNat]; omega

/-- Settles O54: the record's instruction is the MT_EVENT frame of its bytes (`exec_record`), whose data chunk is the length
byte, the bytes and their checksum. -/
theorem recordsRunOnlyInsideFeed : Obligations.RecordsRunOnlyInsideFeed := by
  intro s r
  have hlen : r.bytes.length ≤ 254 := (record_bytes_length_le r).trans (by decide)
  exact ⟨_, _, _, lengthByte_toNat hlen, exec_record r s⟩

/-- The five event codes are the only bytes read as one (R76). -/
theorem eventCode_of_ofCode {b : Byte} {c : EventCode} (h : EventCode.ofCode b = some c) : b = c.code := by
  revert b; cases c <;> decide

/-- A record that parses is what its delivery begins with (R131, R134). -/
theorem parseOne_ok {code : Byte} {body rest : Buffer} {r : EventRecord} (h : parseOne code body = .ok (r, rest)) :
    code :: body = r.bytes ++ rest := by
  unfold parseOne at h
  split at h
  · cases h
  · rename_i c hcode
    split at h
    · cases h
    · rename_i hcut
      injection h with h
      obtain ⟨-, rfl, rfl⟩ := cutBody_length (h ▸ hcut)
      rw [eventCode_of_ofCode hcode]; rfl

/-! ### Deliveries that match no row -/

/-- An event delivery that decodes is one record (R75). -/
theorem decodeEvt_ok {bytes : Buffer} {i : Instr} (h : decodeEvt bytes = .ok i) :
    ∃ r : EventRecord, bytes = r.bytes ∧ i = r.toInstr := by
  unfold decodeEvt at h
  split at h
  · cases h
  · split at h
    · cases h
    · rename_i r hparse
      injection h with h
      exact ⟨r, by simpa using parseOne_ok hparse, h.symm⟩
    · cases h

/-- The decoder refuses an event delivery for a record that does not parse, or for not being exactly one (R75, R131). -/
theorem decodeEvt_error {bytes : Buffer} {e : DecodeError} (h : decodeEvt bytes = .error e) :
    (∃ k, e = .badEvent k) ∨ e = .notOneRecord := by
  unfold decodeEvt at h
  split at h
  · injection h with h; exact .inr h.symm
  · split at h
    · injection h with h; exact .inl ⟨_, h.symm⟩
    · cases h
    · injection h with h; exact .inr h.symm

/-- An event delivery that is no record is run as a payload (log 2). -/
theorem step_evt_of_decode_error {s s' : State} {bytes : Buffer} {e : DecodeError}
    (hf : fetch s = some (⟨.evt, bytes⟩, s')) (hd : decode ⟨.evt, bytes⟩ = .error e) :
    step s = feedUndecodedEvents bytes e s' := by
  rw [step_eq_runUndecoded_of_decode_error hf hd]
  obtain ⟨k, rfl⟩ | rfl := decodeEvt_error hd <;> rfl

/-- One record or not, an event delivery that a payload can hold is the MT_EVENT frame of it (log 2). -/
theorem step_evt_short {s s' : State} {bytes : Buffer} (hf : fetch s = some (⟨.evt, bytes⟩, s'))
    (hlen : bytes.length ≤ 254) : step s = feedEvent bytes s' := by
  cases hd : decode ⟨.evt, bytes⟩ with
  | ok i =>
    obtain ⟨r, rfl, rfl⟩ := decodeEvt_ok hd
    rw [step_eq_exec_of_decode_ok hf hd, exec_record]
  | error e =>
    rw [step_evt_of_decode_error hf hd]
    exact if_pos hlen

/-- Event bytes that no payload can hold are no record and are refused (log 2). -/
theorem step_evt_long {s s' : State} {bytes : Buffer} (hf : fetch s = some (⟨.evt, bytes⟩, s'))
    (hlen : 254 < bytes.length) : ∃ e, step s = .refused (.undecodable e) := by
  cases hd : decode ⟨.evt, bytes⟩ with
  | ok i =>
    obtain ⟨r, rfl, -⟩ := decodeEvt_ok hd
    exact absurd (record_bytes_length_le r) (by omega)
  | error e =>
    rw [step_evt_of_decode_error hf hd]
    exact ⟨e, if_neg (Nat.not_le.mpr hlen)⟩

/-- A frame delivery whose header chunk matches no row is fed as a frame is (log 3). -/
theorem step_hdr_of_decode_error {s s' : State} {bytes : Buffer} {e : DecodeError}
    (hf : fetch s = some (⟨.hdr, bytes⟩, s')) (hd : decode ⟨.hdr, bytes⟩ = .error e) :
    step s = feedTwo (bytes.take 3) (bytes.drop 3) s' := by
  rw [step_eq_runUndecoded_of_decode_error hf hd]
  obtain ⟨k, rfl⟩ := decodeHdr_error hd
  rfl

/-- Settles O48: an unmatched header chunk is fed like any other (`step_hdr_of_decode_error`), and event bytes are a payload
(`step_evt_short`) unless none can hold them (`step_evt_long`). -/
theorem unmatchedDeliveriesRunTheSameRules : Obligations.UnmatchedDeliveriesRunTheSameRules := by
  intro s bytes rest e
  refine ⟨fun hinbox hd => ?_, fun hinbox hlen => ?_, fun hinbox hlen => ?_⟩
  · exact step_hdr_of_decode_error (fetch_eq_of_inbox_cons hinbox) hd
  · exact ⟨_, _, step_evt_short (fetch_eq_of_inbox_cons hinbox) hlen⟩
  · exact step_evt_long (fetch_eq_of_inbox_cons hinbox) hlen

end Sys2Proof.Machine
end

section
/-! SUPPORT. The TXF rows in full (R83; log 14), each the body of the session operation that sends the same frame. -/

namespace Sys2Proof.Machine

theorem exec_fTare {s : State} (hl : s.live = true) (hw : within s.params.maxPayload 1 = true) :
    exec .fTare s = .next (send frameTare s) := by
  rw [exec, execFTare, inSession_live hl, sendTare_eq, if_pos hw]

theorem exec_fTimercmd {s : State} (hl : s.live = true) (hw : within s.params.maxPayload 2 = true) (c : Byte) :
    exec (.fTimercmd c) s = .next (send (frameTimercmd c) s) := by
  rw [exec, execFTimercmd, inSession_live hl, sendTimerCode_eq, if_pos hw]

theorem exec_fIdentify {s : State} (hl : s.live = true) (hw : within s.params.maxPayload 15 = true) :
    exec .fIdentify s = .next (send frameIdentify s) := by
  rw [exec, execFIdentify, inSession_live hl, sendIdentify_eq, if_pos hw]

theorem exec_fNotify {s : State} (hl : s.live = true) (hw : within s.params.maxPayload 9 = true) :
    exec .fNotify s = .next { send frameNotify s with notificationRegistered := true } := by
  rw [exec, execFNotify, inSession_live hl, sendNotificationRequest_eq, if_pos hw]

/-- The heartbeat row goes out at its free time, where the earliest allowed time fits TS_BITS. -/
theorem exec_fHeartbeat {s : State} (hl : s.live = true) (hw : within s.params.maxPayload 2 = true)
    (hfits : fitsBits s.params.tsBits (s.lastHeartbeatTimestampMillis + 3000) = true) :
    exec .fHeartbeat s = .next { send frameHeartbeat s with
      lastHeartbeatTimestampMillis := unstatedNow s, draws := s.draws + 1 } := by
  calc exec .fHeartbeat s
      = sendHeartbeatFrame (unstatedNow s) { s with draws := s.draws + 1 } :=
        (inSession_live hl _).trans (if_pos hfits)
    _ = _ := (sendHeartbeatFrame_eq _ _).trans (if_pos hw)

theorem exec_fHeartbeat_tooWide {s : State} (hl : s.live = true)
    (hfits : fitsBits s.params.tsBits (s.lastHeartbeatTimestampMillis + 3000) = false) :
    exec .fHeartbeat s = .refused .nowTooWide :=
  inSession_refused hl (if_neg (ne_true_of_eq_false hfits))

/-- Settles O42: each row in full, and the free time of the heartbeat is one R188 allows and TS_BITS takes. -/
theorem commandFramesAreHandedToTheTransport : Obligations.CommandFramesAreHandedToTheTransport := by
  intro s c hl
  exact ⟨rfl, rfl, rfl, exec_fTare hl,
    fun hw hfits => ⟨unstatedNow s, earliest_le_unstatedNow s, unstatedNow_fits hfits, exec_fHeartbeat hl hw hfits⟩,
    exec_fHeartbeat_tooWide hl, fun hw => exec_fTimercmd hl hw c, exec_fIdentify hl, exec_fNotify hl⟩

end Sys2Proof.Machine
end

section
/-! SUPPORT. What LSF puts out is legal (R72, R83, R193, R210), through FEED's parts and the instructions that feed nothing. -/

namespace Sys2Proof.Machine

/-- Legal outputs stay legal when legal events are appended. -/
theorem State.OutputsLegal.append {s u : State} {evs : List OutEvent} (hs : s.OutputsLegal) (hout : u.out = s.out ++ evs)
    (hevs : ∀ e ∈ evs, OutEvent.Legal e) : u.OutputsLegal := by
  intro e he
  rw [hout] at he
  exact (List.mem_append.mp he).elim (hs e) (hevs e)

theorem State.OutputsLegal.append_one {s u : State} {e : OutEvent} (hs : s.OutputsLegal) (hout : u.out = s.out ++ [e])
    (he : OutEvent.Legal e) : u.OutputsLegal :=
  hs.append hout (List.forall_mem_singleton.mpr he)

theorem frameHeartbeat_legal : OutEvent.Legal (.tx frameHeartbeat) := .inl rfl
theorem frameIdentify_legal : OutEvent.Legal (.tx frameIdentify) := .inr (.inr (.inr (.inl rfl)))
theorem frameNotify_legal : OutEvent.Legal (.tx frameNotify) := .inr (.inr (.inr (.inr rfl)))

theorem raise_outputsLegal (k : ErrKind) {s : State} (hs : s.OutputsLegal) : (raise k s).OutputsLegal :=
  hs.append_one (raise_out k s) trivial

theorem parseSequence_outputsLegal (p : Buffer) {s : State} (hs : s.OutputsLegal) : (parseSequence p s).OutputsLegal :=
  parseSequence_induct (P := State.OutputsLegal) (fun r u hu => by rwa [State.OutputsLegal, applyRecord_out])
    (fun k _ _ hu => raise_outputsLegal k hu) p s hs

theorem dispatcher_outputsLegal {t : MsgType} {p : Buffer} {s u : State} (hs : s.OutputsLegal)
    (h : dispatcher t p s = .next u) : u.OutputsLegal := by
  obtain ⟨-, -, rfl⟩ | ⟨-, -, -, rfl⟩ | ⟨-, rfl⟩ | ⟨-, rfl⟩ := dispatcher_cases h
  · exact hs.append rfl (List.forall_mem_cons.mpr ⟨frameIdentify_legal, List.forall_mem_singleton.mpr rfl⟩)
  · exact hs.append_one rfl frameNotify_legal
  · exact parseSequence_outputsLegal p hs
  · exact hs

/-- The payload dispatched is the one cut from the chunk, so its length is one its shape allows (R72). -/
theorem feedData_outputsLegal {t : MsgType} {chunk : Buffer} {s u : State} (hs : s.OutputsLegal)
    (h : feedData t chunk s = .next u) : u.OutputsLegal := by
  obtain ⟨-, rfl⟩ | ⟨p, v, hcut, hv, rfl⟩ := feedData_next h
  · exact raise_outputsLegal _ hs
  · have hdispatch : (emit (.dispatch t p) s).OutputsLegal := hs.append_one (emit_out _ s) (cutPayload_fits hcut)
    have hhandled : v.OutputsLegal := dispatcher_outputsLegal hdispatch hv
    exact hhandled

theorem feedHeader_outputsLegal (chunk : Buffer) {s : State} (hs : s.OutputsLegal) :
    (feedHeader chunk s).OutputsLegal := by
  obtain ⟨t, -, e⟩ | e | e := feedHeader_cases chunk s
  · rw [e]; exact hs
  · rw [e]; exact raise_outputsLegal _ hs
  · rw [e]; exact raise_outputsLegal _ hs

theorem feedChunk_outputsLegal {chunk : Buffer} {s u : State} (hs : s.OutputsLegal) (h : feedChunk chunk s = .next u) :
    u.OutputsLegal := by
  obtain ⟨-, -, ⟨-, rfl⟩ | ⟨-, t, -, h⟩⟩ := feedChunk_next h
  · exact feedHeader_outputsLegal chunk hs
  · exact feedData_outputsLegal hs h

/-- The instructions that feed nothing put out a command frame, a cancellation, or nothing. -/
theorem exec_rest_outputsLegal {i : Instr} {s u : State} (hi : isFeeding i = false) (hs : s.OutputsLegal)
    (h : exec i s = .next u) : u.OutputsLegal := by
  obtain ⟨-, rfl⟩ | ⟨-, -, rfl⟩ | ⟨-, r, rfl⟩ | ⟨now, -, -, rfl | ⟨-, -, rfl⟩⟩ | ⟨now, -, -, -, -, rfl⟩ | ⟨-, -, rfl⟩ |
    ⟨-, f, hf, rfl⟩ := exec_rest_cases hi h
  · exact hs
  · exact hs.append_one (closeSession_out s) trivial
  · exact hs
  · exact hs
  · exact hs.append_one rfl frameHeartbeat_legal
  · exact hs.append_one rfl frameHeartbeat_legal
  · exact hs.append_one rfl frameNotify_legal
  · exact hs.append_one rfl (sentFrame_some hf).1

/-- Settles O52: a fed chunk and every instruction that feeds none put out only legal events, and legality does not read the
inbox. -/
theorem stepKeepsOutputsLegal : Obligations.StepKeepsOutputsLegal := by
  intro s u hs h
  exact step_preserves (P := State.OutputsLegal) (fun _ _ hs => hs) (fun _ _ _ => feedChunk_outputsLegal)
    (fun _ _ _ => exec_rest_outputsLegal) hs h

end Sys2Proof.Machine
end

section
/-! SUPPORT. FEED in HEADER state (41_frame_decoder.md R101 to R104): a header chunk is rejected with one error, which leaves
every register, or latches its type. -/

namespace Sys2Proof.Machine

/-- The length test and the magic test (R101, R102) raise the same error. -/
theorem decodeHeader_invalidHeader {chunk : Buffer} (h : chunk.length ≠ 3 ∨ chunk.take 2 ≠ [0xEF, 0xDD]) :
    decodeHeader chunk = .error .invalidHeader := by
  match chunk with
  | [] | [_] | [_, _] | _ :: _ :: _ :: _ :: _ => rfl
  | [h1, h2, t] =>
    have hmagic : ¬(h1 = Config.header1 ∧ h2 = Config.header2) := by
      rintro ⟨rfl, rfl⟩
      exact h.elim (· rfl) (· rfl)
    exact if_neg hmagic

/-- The type test (R103) comes after the magic. -/
theorem decodeHeader_unknownMessageType {b : Byte} (h : MsgType.ofCode b = none) :
    decodeHeader [0xEF, 0xDD, b] = .error .unknownMessageType := by
  simp [decodeHeader, Config.header1, Config.header2, h]

theorem exec_feed_header {s : State} {chunk : Buffer} (hl : s.live = true) (hf : s.fstate = .header)
    (hw : within s.params.maxChunk chunk.length = true) : exec (.feed chunk) s = .next (feedHeader chunk s) :=
  feedChunk_header hl hw hf

/-- A rejected header chunk raises its error and is dropped. -/
theorem exec_feed_header_error {s : State} {chunk : Buffer} {k : ErrKind} (hl : s.live = true) (hf : s.fstate = .header)
    (hw : within s.params.maxChunk chunk.length = true) (hk : decodeHeader chunk = .error k) :
    exec (.feed chunk) s = .next (raise k s) := by
  rw [exec_feed_header hl hf hw, feedHeader, hk]

/-- Settles O8: another length fails the first test. -/
theorem headerChunkOfAnotherLengthIsInvalidHeader : Obligations.HeaderChunkOfAnotherLengthIsInvalidHeader := by
  intro s chunk hl hf hw hlen
  exact exec_feed_header_error hl hf hw (decodeHeader_invalidHeader (.inl hlen))

/-- Settles O9: a wrong byte among the first two fails the magic test. -/
theorem headerChunkWithWrongMagicIsInvalidHeader : Obligations.HeaderChunkWithWrongMagicIsInvalidHeader := by
  intro s h1 h2 t hl hf hw hmagic
  have htake : [h1, h2, t].take 2 ≠ [0xEF, 0xDD] := fun h => by
    obtain ⟨rfl, rfl⟩ : h1 = 0xEF ∧ h2 = 0xDD := by simpa using h
    exact hmagic.elim (· rfl) (· rfl)
  exact exec_feed_header_error (chunk := [h1, h2, t]) hl hf hw (decodeHeader_invalidHeader (.inr htake))

/-- Settles O10: the other 249 bytes fail the type test (`ofCode_eq_none`). -/
theorem headerChunkOfUnknownTypeIsDropped : Obligations.HeaderChunkOfUnknownTypeIsDropped := by
  intro s t hl hf hw ht
  exact exec_feed_header_error (chunk := [0xEF, 0xDD, t]) hl hf hw (decodeHeader_unknownMessageType (ofCode_eq_none t ht))

/-- Settles O11: each row of R73 is a type with its code, so the chunk is that type's header chunk. -/
theorem goodHeaderChunkLatchesItsType : Obligations.GoodHeaderChunkLatchesItsType := by
  intro s b t hl hf hw hrow
  have hcode : b = t.code := by cases t <;> simpa [MsgType.code] using hrow
  subst hcode
  calc exec (.feed (headerChunk t)) s
      = .next (feedHeader (headerChunk t) s) := exec_feed_header hl hf hw
    _ = _ := by rw [feedHeader_headerChunk]

end Sys2Proof.Machine
end

section
/-! SUPPORT. FEED in DATA state (41_frame_decoder.md R105 to R110). What a data chunk does is decided by the payload cut from
it; the lemmas about `cutPayload` say which bytes that reads. -/

namespace Sys2Proof.Machine

/-! ### The cut -/

theorem cutPayload_lp_short {t : MsgType} (ht : t.shape = .lp) {b : Byte} {rest : Buffer}
    (h : rest.length + 1 < max b.toNat 1 + 2) : cutPayload t (b :: rest) = none := by
  rw [cutPayload_lp ht, if_pos h]

theorem cutPayload_lp_accepted {t : MsgType} (ht : t.shape = .lp) {b : Byte} {rest : Buffer}
    (h : max b.toNat 1 + 2 ≤ rest.length + 1) :
    cutPayload t (b :: rest) = some (rest.take (max b.toNat 1 - 1)) := by
  rw [cutPayload_lp ht, if_neg (Nat.not_lt.mpr h)]

theorem cutPayload_fx_short {t : MsgType} (ht : t.shape = .fx) {chunk : Buffer} (h : chunk.length < 4) :
    cutPayload t chunk = none := by
  rw [cutPayload_fx ht, if_pos h]

theorem cutPayload_fx_accepted {t : MsgType} (ht : t.shape = .fx) {chunk : Buffer} (h : 4 ≤ chunk.length) :
    cutPayload t chunk = some (chunk.take 1) := by
  rw [cutPayload_fx ht, if_neg (Nat.not_lt.mpr h)]

theorem cutPayload_nl_short {t : MsgType} (ht : t.shape = .nl) {chunk : Buffer} (h : chunk.length < 2) :
    cutPayload t chunk = none := by
  rw [cutPayload_nl ht, if_pos h]

theorem cutPayload_nl_accepted {t : MsgType} (ht : t.shape = .nl) {chunk : Buffer} (h : 2 ≤ chunk.length) :
    cutPayload t chunk = some [] := by
  rw [cutPayload_nl ht, if_neg (Nat.not_lt.mpr h)]

/-- Behind the bytes a length byte declares, any two or more are accepted and none is in the payload (R109). -/
theorem cutPayload_lp_append {t : MsgType} (ht : t.shape = .lp) {b : Byte} {rest x : Buffer}
    (hL : rest.length + 1 = max b.toNat 1) (hx : 2 ≤ x.length) : cutPayload t (b :: rest ++ x) = some rest := by
  have hrest : rest.length = max b.toNat 1 - 1 := by omega
  rw [List.cons_append, cutPayload_lp_accepted ht (by rw [List.length_append]; omega), List.take_left' hrest]

theorem cutPayload_fx_append {t : MsgType} (ht : t.shape = .fx) {kept x : Buffer} (hL : kept.length = 2)
    (hx : 2 ≤ x.length) : cutPayload t (kept ++ x) = some (kept.take 1) := by
  rw [cutPayload_fx_accepted ht (by rw [List.length_append]; omega), List.take_append_of_le_length (by omega)]

/-- A length byte of 0 is read as 1 (R72, R120). -/
theorem cutPayload_lp_zero {t : MsgType} (ht : t.shape = .lp) (rest : Buffer) :
    cutPayload t (0 :: rest) = cutPayload t (1 :: rest) := by
  rw [cutPayload_lp ht, cutPayload_lp ht]; rfl

/-! ### The chunk -/

/-- A data chunk acts through its cut alone. -/
theorem feedData_congr {t : MsgType} {c c' : Buffer} (h : cutPayload t c = cutPayload t c') (s : State) :
    feedData t c s = feedData t c' s := by
  rw [feedData, feedData, h]

section
variable {s : State} {t : MsgType} {chunk : Buffer} (hl : s.live = true) (hf : s.fstate = .data)
  (ht : s.msgType = some t) (hw : within s.params.maxChunk chunk.length = true)
include hl hf ht hw

theorem exec_feed_data : exec (.feed chunk) s = feedData t chunk s :=
  feedChunk_data hl hw hf ht

theorem exec_feed_data_completes (hfits : handlerFits t s) : ∃ u, exec (.feed chunk) s = .next u := by
  rw [exec_feed_data hl hf ht hw]
  exact feedData_completes hfits chunk

/-- Two chunks with the same cut have the same outcome. -/
theorem exec_feed_data_congr {chunk' : Buffer} (hw' : within s.params.maxChunk chunk'.length = true)
    (h : cutPayload t chunk = cutPayload t chunk') : exec (.feed chunk) s = exec (.feed chunk') s := by
  rw [exec_feed_data hl hf ht hw, exec_feed_data hl hf ht hw', feedData_congr h]

end

/-- Settles O12: in each of the three shapes the length test (R106) fails, so nothing is cut. -/
theorem dataChunkShorterThanDeclaredAborts : Obligations.DataChunkShorterThanDeclaredAborts := by
  intro s t chunk hl hf ht hw hshort
  have hcut : cutPayload t chunk = none := by
    obtain ⟨hlp, rfl | ⟨b, rest, rfl, hlen⟩⟩ | ⟨rfl, hlen⟩ | ⟨hnl, hlen⟩ := hshort
    · exact cutPayload_lp_nil ((shape_lp_iff t).mpr hlp)
    · exact cutPayload_lp_short ((shape_lp_iff t).mpr hlp) hlen
    · exact cutPayload_fx_short rfl hlen
    · exact cutPayload_nl_short ((shape_nl_iff t).mpr hnl) hlen
  rw [exec_feed_data hl hf ht hw, feedData_short hcut]
  rfl

/-- Settles O13: the chunk completes (`feedData_completes`), no handler writes what `FeedKeeps` lists, and the output is one
error or begins with the Dispatch. -/
theorem everyDataChunkReturnsToHeader : Obligations.EveryDataChunkReturnsToHeader := by
  intro s t chunk hl hf ht hw hfits
  obtain ⟨u, hu⟩ := exec_feed_data_completes hl hf ht hw hfits
  have hu' : feedData t chunk s = .next u := exec_feed_data hl hf ht hw ▸ hu
  obtain ⟨hheader, k⟩ := feedData_keeps hu'
  have hout : ∃ evs, u.out = s.out ++ evs ∧ evs ≠ [] := by
    obtain ⟨-, hout⟩ | ⟨p, evs, -, hout⟩ := feedData_out hu'
    · exact ⟨_, hout, List.cons_ne_nil _ _⟩
    · exact ⟨_, hout, List.cons_ne_nil _ _⟩
  obtain ⟨evs, hout, hne⟩ := hout
  exact ⟨u, evs, hu, hheader, k.msgType.trans ht, k.live.trans hl, k.lastHeartbeatTimestampMillis, hout, hne, k.inbox,
    k.result, k.params, k.draws⟩

/-- Settles O14: whatever follows index `L`, the payload cut is the same. -/
theorem trailingBytesAreNeverRead : Obligations.TrailingBytesAreNeverRead := by
  intro s t kept x y hl hf ht hwx hwy hx hy hkept
  have hcut : ∃ p, ∀ z : Buffer, 2 ≤ z.length → cutPayload t (kept ++ z) = some p := by
    obtain ⟨hlp, b, rest, rfl, hL⟩ | ⟨rfl, hL⟩ | ⟨hnl, rfl⟩ := hkept
    · exact ⟨rest, fun z => cutPayload_lp_append ((shape_lp_iff t).mpr hlp) hL⟩
    · exact ⟨kept.take 1, fun z => cutPayload_fx_append rfl hL⟩
    · exact ⟨[], fun z => cutPayload_nl_accepted ((shape_nl_iff t).mpr hnl)⟩
  obtain ⟨p, hp⟩ := hcut
  exact ⟨exec_feed_data_congr hl hf ht hwx hwy ((hp x hx).trans (hp y hy).symm),
    exec_feed_data_completes hl hf ht hwx⟩

/-- Settles O15: a chunk that fails R101 or R102 puts out one error and no Dispatch; a length byte of 0 cuts as 1 does. -/
theorem headerValidationAndZeroLengthByte : Obligations.HeaderValidationAndZeroLengthByte := by
  refine ⟨fun s chunk hl hf hw hbad => ?header, fun s t rest hl hf ht hlp hw => ?zero⟩
  case header =>
    exact ⟨_, _, exec_feed_header_error hl hf hw (decodeHeader_invalidHeader hbad), hf, raise_out _ s, by simp⟩
  case zero =>
    have hcut := cutPayload_lp_zero ((shape_lp_iff t).mpr hlp) rest
    exact ⟨exec_feed_data_congr (chunk := 0 :: rest) hl hf ht hw hw hcut,
      exec_feed_data_completes (chunk := 0 :: rest) hl hf ht hw⟩

end Sys2Proof.Machine
end

section
/-! SUPPORT. The seven frames from HEADER state (41_frame_decoder.md R112 to R118): the header chunk latches the type, then the
data chunk is rejected, or its payload is dispatched and the framer is back in HEADER. -/

namespace Sys2Proof.Machine

/-- A frame of type `t` from `s` whose payload `p` has been dispatched and whose handler has not yet run (R107, R108). -/
def afterDispatch (t : MsgType) (p : Buffer) (s : State) : State :=
  emit (.dispatch t p) { s with msgType := some t, fstate := .data }

section
variable {s : State} {t : MsgType} {d : Buffer} (hl : s.live = true) (hf : s.fstate = .header)
  (h3 : within s.params.maxChunk 3 = true) (hd : within s.params.maxChunk d.length = true)
include hl hf h3 hd

theorem exec_frameInstr_header :
    exec (frameInstr t d) s = feedData t d { s with msgType := some t, fstate := .data } := by
  rw [exec_frameInstr, feedTwo_headerChunk hl hf h3 hd]

/-- A frame whose data chunk is too short latches its type and raises InvalidDataLength (R106). -/
theorem exec_frameInstr_short (hcut : cutPayload t d = none) :
    exec (frameInstr t d) s = .next { s with msgType := some t, out := s.out ++ [.err .invalidDataLength] } := by
  rw [exec_frameInstr_header hl hf h3 hd, feedData_short hcut]
  simp [raise, emit, hf]

/-- An accepted frame is the Dispatch and then its handler, from whose state the framer goes back to HEADER (R108). -/
theorem exec_frameInstr_dispatched {p : Buffer} {v : State} (hcut : cutPayload t d = some p)
    (hv : dispatcher t p (afterDispatch t p s) = .next v) :
    exec (frameInstr t d) s = .next { v with fstate := s.fstate } := by
  rw [afterDispatch] at hv
  rw [exec_frameInstr_header hl hf h3 hd, feedData_cut hcut, hv, andThen_next, hf]

/-- Of an accepted frame whose handler does nothing only the latched type and the Dispatch are left. -/
theorem exec_frameInstr_ignored {p : Buffer} (hcut : cutPayload t d = some p)
    (hnop : dispatcher t p (afterDispatch t p s) = .next (afterDispatch t p s)) :
    exec (frameInstr t d) s = .next { s with msgType := some t, out := s.out ++ [.dispatch t p] } :=
  exec_frameInstr_dispatched hl hf h3 hd hcut hnop

end

/-! ### The types without a handler -/

/-- Settles O20: from 4 bytes on the first is cut and dispatched, and MT_SYSTEM has no handler. -/
theorem systemFrameForwardsOneByte : Obligations.SystemFrameForwardsOneByte := by
  intro s d hl hf h3 hd
  refine ⟨fun b rest hbytes hlen => ?accepted, fun hlen => ?short⟩
  case accepted =>
    have hcut : cutPayload .system d = some [b] := by
      rw [cutPayload_fx_accepted rfl hlen, hbytes, List.take_succ_cons, List.take_zero]
    exact exec_frameInstr_ignored hl hf h3 hd hcut rfl
  case short =>
    exact exec_frameInstr_short (t := .system) hl hf h3 hd (cutPayload_fx_short rfl hlen)

/-- Settles O21: each row is the frame of a type of shape NL, which cuts the empty payload and has no handler. -/
theorem tareIdentifyAndTimerFramesAreIgnored : Obligations.TareIdentifyAndTimerFramesAreIgnored := by
  intro s d i t hl hf h3 hd hrow
  have hframe : i = frameInstr t d ∧ t.shape = .nl ∧ ∀ u, dispatcher t [] u = .next u := by
    simp only [List.mem_cons, Prod.mk.injEq, List.not_mem_nil, or_false] at hrow
    obtain ⟨rfl, rfl⟩ | ⟨rfl, rfl⟩ | ⟨rfl, rfl⟩ := hrow
    · exact ⟨rfl, rfl, fun _ => rfl⟩
    · exact ⟨rfl, rfl, fun _ => rfl⟩
    · exact ⟨rfl, rfl, fun _ => rfl⟩
  obtain ⟨rfl, hnl, hnop⟩ := hframe
  exact ⟨fun hlen => exec_frameInstr_ignored hl hf h3 hd (cutPayload_nl_accepted hnl hlen) (hnop _),
    fun hlen => exec_frameInstr_short hl hf h3 hd (cutPayload_nl_short hnl hlen)⟩

/-! ### The length-prefixed types -/

/-- What a frame of a length-prefixed type does with a data chunk that is too short or empty (R106, D14). -/
theorem exec_frameInstr_lp_short {s : State} {t : MsgType} (b : Byte) (rest : Buffer) (hlp : t.shape = .lp)
    (hl : s.live = true) (hf : s.fstate = .header) (h3 : within s.params.maxChunk 3 = true)
    (hd : within s.params.maxChunk (rest.length + 1) = true) :
    (rest.length + 1 < max b.toNat 1 + 2 → exec (frameInstr t (b :: rest)) s =
      .next { s with msgType := some t, out := s.out ++ [.err .invalidDataLength] }) ∧
    exec (frameInstr t []) s = .next { s with msgType := some t, out := s.out ++ [.err .invalidDataLength] } :=
  ⟨fun hlen => exec_frameInstr_short hl hf h3 hd (cutPayload_lp_short hlp hlen),
    exec_frameInstr_short hl hf h3 (within_le h3 (Nat.zero_le 3)) (cutPayload_lp_nil hlp)⟩

/-- The level HandleInfo writes (R184, D20), with the length test in the open. -/
theorem infoLevel_eq (payload : Buffer) (level : Byte) :
    payload[4]?.getD level = if 5 ≤ payload.length then payload.getD 4 0 else level := by
  by_cases h : 5 ≤ payload.length
  · have h4 : 4 < payload.length := h
    simp [h, h4]
  · have h4 : payload.length ≤ 4 := by omega
    simp [h, h4]

theorem dispatcher_info {s : State} (h : within s.params.maxPayload 15 = true) (p : Buffer) :
    dispatcher .info p s = .next { s with
      battery := if 5 ≤ p.length then p.getD 4 0 else s.battery
      out := s.out ++ [.tx frameIdentify, .scheduleHeartbeat 4000] } := by
  rw [dispatcher, handleInfo_eq, if_pos h, infoLevel_eq]

theorem dispatcher_status_registered {s : State} (hn : s.notificationRegistered = true) (p : Buffer) :
    dispatcher .status p s = .next s := by
  rw [dispatcher, handleStatus_eq, if_pos hn]

theorem dispatcher_status_unregistered {s : State} (hn : s.notificationRegistered = false)
    (h : within s.params.maxPayload 9 = true) (p : Buffer) :
    dispatcher .status p s = .next { s with
      notificationRegistered := true, out := s.out ++ [.tx frameNotify] } := by
  rw [dispatcher, handleStatus_eq, if_neg (ne_true_of_eq_false hn), if_pos h]

/-- Settles O22: the payload is cut, and HandleInfo runs over it in full (`dispatcher_info`). -/
theorem infoFrameSetsBatteryIdentifiesAndSchedules : Obligations.InfoFrameSetsBatteryIdentifiesAndSchedules := by
  intro s b rest hl hf h3 hd
  refine ⟨fun hlen hw => ⟨_, rfl, ?_⟩, exec_frameInstr_lp_short (t := .info) b rest rfl hl hf h3 hd⟩
  have h := exec_frameInstr_dispatched (t := .info) (d := b :: rest) hl hf h3 hd (cutPayload_lp_accepted rfl hlen)
    (dispatcher_info (s := afterDispatch _ _ s) hw _)
  simpa [frameInstr, afterDispatch, emit, frameIdentify] using h

/-- Settles O23: an accepted chunk dispatches, and HandleStatus asks for the notifications only while the flag is 0. -/
theorem statusFrameRegistersOnce : Obligations.StatusFrameRegistersOnce := by
  intro s b rest hl hf h3 hd
  refine ⟨fun hlen hn hw => ?_, fun hlen hn => ?_, exec_frameInstr_lp_short (t := .status) b rest rfl hl hf h3 hd⟩
  · have h := exec_frameInstr_dispatched (t := .status) (d := b :: rest) hl hf h3 hd (cutPayload_lp_accepted rfl hlen)
      (dispatcher_status_unregistered (s := afterDispatch _ _ s) hn hw _)
    simpa [frameInstr, afterDispatch, emit, frameNotify] using h
  · exact exec_frameInstr_ignored (t := .status) (d := b :: rest) hl hf h3 hd (cutPayload_lp_accepted rfl hlen)
      (dispatcher_status_registered (s := afterDispatch _ _ s) hn _)

/-- Settles O24: an accepted chunk is `feedTwo_event` with the payload its length byte declares. -/
theorem eventFrameRunsTheEventDecoder : Obligations.EventFrameRunsTheEventDecoder := by
  intro s b rest hl hf h3 hd
  exact ⟨fun hlen => ⟨_, rfl, feedTwo_event hl hf h3 hd (cutPayload_lp_accepted rfl hlen)⟩,
    exec_frameInstr_lp_short (t := .event) b rest rfl hl hf h3 hd⟩

end Sys2Proof.Machine
end

section
/-! SUPPORT. The event decoder (42_event_codec.md). A payload is good records and then, unless it is exhausted, a record that
fails (R130 to R134); good records write the data registers alone (R20), a failing one puts out its one error (R141). -/

namespace Sys2Proof.Machine

/-! ### A record that fails -/

theorem parseSequence_error {code : Byte} {body : Buffer} {k : ErrKind} (h : parseOne code body = .error k) (s : State) :
    parseSequence (code :: body) s = raise k s := by
  rw [parseSequence_cons, h]

theorem parseOne_unknown {code : Byte} (h : code ∉ [0x05, 0x06, 0x07, 0x08, 0x0B]) (body : Buffer) :
    parseOne code body = .error .unknownEventCode := by
  rw [parseOne, eventOfCode_eq_none code h]

theorem parseOne_short {c : EventCode} {body : Buffer} (h : body.length < c.bodyLen) :
    parseOne c.code body = .error .invalidEventLength := by
  rw [parseOne, ofCode_eventCode]
  simp only [(cutBody_eq_none_iff c body).mpr h]

/-- The table of R76, read row by row: an event code and the length of its body. -/
theorem eventCode_of_mem_table {code : Byte} {n : Nat}
    (h : (code, n) ∈ [((0x05 : Byte), 6), (0x06, 1), (0x07, 3), (0x08, 1), (0x0B, 2)]) :
    ∃ c : EventCode, code = c.code ∧ n = c.bodyLen := by
  simp only [List.mem_cons, Prod.mk.injEq, List.not_mem_nil, or_false] at h
  obtain ⟨rfl, rfl⟩ | ⟨rfl, rfl⟩ | ⟨rfl, rfl⟩ | ⟨rfl, rfl⟩ | ⟨rfl, rfl⟩ := h
  · exact ⟨.weight, rfl, rfl⟩
  · exact ⟨.battery, rfl, rfl⟩
  · exact ⟨.timer, rfl, rfl⟩
  · exact ⟨.key, rfl, rfl⟩
  · exact ⟨.ack, rfl, rfl⟩

/-- An event error is put out and changes nothing else (R141, R210). -/
theorem raise_eventError {k : ErrKind} (hk : k = .unknownEventCode ∨ k = .invalidEventLength) (s : State) :
    raise k s = { s with out := s.out ++ [.err k] } := by
  obtain rfl | rfl := hk <;> rfl

/-! ### Good records in a row -/

/-- The effect of records one after the other, the first one first (R130). -/
def applyRecords (rs : List EventRecord) (s : State) : State := rs.foldl (fun u r => applyRecord r u) s

@[simp] theorem applyRecords_nil (s : State) : applyRecords [] s = s := rfl
@[simp] theorem applyRecords_cons (r : EventRecord) (rs : List EventRecord) (s : State) :
    applyRecords (r :: rs) s = applyRecords rs (applyRecord r s) := rfl

/-- No record reads or writes what the frame around it leaves, the latched type and the output. -/
theorem applyRecord_framed (r : EventRecord) (s : State) (t : Option MsgType) (o : List OutEvent) :
    applyRecord r { s with msgType := t, out := o } = { applyRecord r s with msgType := t, out := o } := by
  cases r <;> rfl

theorem applyRecords_framed (rs : List EventRecord) (s : State) (t : Option MsgType) (o : List OutEvent) :
    applyRecords rs { s with msgType := t, out := o } = { applyRecords rs s with msgType := t, out := o } := by
  induction rs generalizing s with
  | nil => rfl
  | cons r rs ih => rw [applyRecords_cons, applyRecord_framed, ih, applyRecords_cons]

theorem applyRecords_fstate (rs : List EventRecord) (s : State) : (applyRecords rs s).fstate = s.fstate := by
  induction rs generalizing s with
  | nil => rfl
  | cons r rs ih => rw [applyRecords_cons, ih, applyRecord_fstate]

/-! ### What a payload can write -/

/-- `u` is `s` but for the data registers, of which no present one is absent in `u` (R20, R33, R39). -/
structure WritesData (s u : State) : Prop where
  frame : u = { s with weight := u.weight, battery := u.battery, timer := u.timer }
  weight : s.weight.isSome → u.weight.isSome
  timer : s.timer.isSome → u.timer.isSome

theorem WritesData.refl (s : State) : WritesData s s := ⟨rfl, id, id⟩

theorem WritesData.trans {s u v : State} (h : WritesData s u) (h' : WritesData u v) : WritesData s v where
  frame := h'.frame.trans (by rw [h.frame])
  weight := h'.weight ∘ h.weight
  timer := h'.timer ∘ h.timer

theorem applyRecord_writesData (r : EventRecord) (s : State) : WritesData s (applyRecord r s) where
  frame := by cases r <;> rfl
  weight := applyRecord_weight_isSome r
  timer := applyRecord_timer_isSome r

/-- All the loop can do: it writes data registers, and puts out nothing or one of the two event errors (R141). -/
theorem parseLoop_writesData (n : Nat) (b : Buffer) (s : State) : ∃ u evs, WritesData s u ∧
    parseLoop n b s = { u with out := s.out ++ evs } ∧
    (evs = [] ∨ evs = [.err .unknownEventCode] ∨ evs = [.err .invalidEventLength]) := by
  induction n generalizing b s with
  | zero => exact ⟨s, [], WritesData.refl s, by rw [List.append_nil]; rfl, .inl rfl⟩
  | succ n ih =>
    cases b with
    | nil => exact ⟨s, [], WritesData.refl s, by rw [List.append_nil]; rfl, .inl rfl⟩
    | cons code body =>
      rw [parseLoop_cons]
      cases hparse : parseOne code body with
      | error k =>
        have hk := parseOne_error hparse
        exact ⟨s, [.err k], WritesData.refl s, raise_eventError hk s, .inr (by simpa using hk)⟩
      | ok p =>
        obtain ⟨r, rest⟩ := p
        obtain ⟨u, evs, hu, hloop, hevs⟩ := ih rest (applyRecord r s)
        exact ⟨u, evs, (applyRecord_writesData r s).trans hu, applyRecord_out r s ▸ hloop, hevs⟩

/-! ### The decoded weight -/

/-- The divisor a unit code selects (R140): a power of ten up to code 4, and 1 beyond. -/
theorem ten_pow_unitExp (unit : Byte) : (10 : Rat) ^ (unitExp unit).val =
    if unit = 1 then 10 else if unit = 2 then 100 else if unit = 3 then 1000 else if unit = 4 then 10000 else 1 := by
  have hnat : 10 ^ (unitExp unit).val =
      if unit = 1 then 10 else if unit = 2 then 100 else if unit = 3 then 1000 else if unit = 4 then 10000 else 1 := by
    revert unit; decide
  exact_mod_cast congrArg (Nat.cast : Nat → Rat) hnat

theorem weightValue_weightOf (b0 b1 b2 unit flags : Byte) :
    weightValue (weightOf b0 b1 b2 unit flags) = (if flags &&& 0x02 ≠ 0 then -1 else 1) *
      (((b0.toNat + 256 * b1.toNat + 65536 * b2.toNat : Nat) : Rat) / (10 : Rat) ^ (unitExp unit).val) := by
  simp only [weightValue, weightOf, magnitude_toNat, signFlag_iff, mul_div_assoc]

/-! ### The obligations -/

/-- Settles O25: the record is applied (`exec_record_header`), and `weightOf` is its three fields. -/
theorem weightRecordSetsTheTriple : Obligations.WeightRecordSetsTheTriple := by
  intro s b0 b1 b2 b3 b4 b5 hl hf hw
  exact ⟨weightOf b0 b1 b2 b4 b5, exec_record_header (.weight b0 b1 b2 b3 b4 b5) hl hf hw, magnitude_toNat b0 b1 b2,
    unitExp_val b4, signFlag_iff b5⟩

/-- Settles O26: what the accessor reads is `weightOf` the body, whose value is `weightValue_weightOf`. -/
theorem weightValueIsScaledAndSigned : Obligations.WeightValueIsScaledAndSigned := by
  intro s b0 b1 b2 b3 b4 b5 hl hf hw
  refine ⟨_, weightOf b0 b1 b2 b4 b5, exec_record_header (.weight b0 b1 b2 b3 b4 b5) hl hf hw, rfl, ?_⟩
  rw [weightValue_weightOf, ten_pow_unitExp]

/-- Settles O27, the record applied. -/
theorem batteryRecordIsStoredVerbatim : Obligations.BatteryRecordIsStoredVerbatim :=
  fun _ level hl hf hw => exec_record_header (.battery level) hl hf hw

/-- Settles O28, the record applied. -/
theorem timerRecordIsStoredAsReceived : Obligations.TimerRecordIsStoredAsReceived :=
  fun _ minutes seconds millis hl hf hw => exec_record_header (.timer minutes seconds millis) hl hf hw

/-- Settles O29: both records apply as nothing, in a frame of their own and at the front of a payload. -/
theorem keyAndAckRecordsAreDiscarded : Obligations.KeyAndAckRecordsAreDiscarded := by
  intro s v v0 v1 rest hl hf hw
  exact ⟨exec_record_header (.key v) hl hf (within_le hw (by decide : 5 ≤ 6)), exec_record_header (.ack v0 v1) hl hf hw,
    parseSequence_record (.key v) rest s, parseSequence_record (.ack v0 v1) rest s⟩

/-- Settles O30: one turn of the loop, its end, and the record's own frame. -/
theorem recordsAreAppliedInPayloadOrder : Obligations.RecordsAreAppliedInPayloadOrder :=
  fun s r rest => ⟨parseSequence_record r rest s, parseSequence_nil s, exec_record_header r⟩

/-- Settles O31: the payload is cut whole, its good records are applied (`parseSequence_records`), and the record after them
fails by its code or its length. -/
theorem eventFrameStopsAtTheFirstBadRecord : Obligations.EventFrameStopsAtTheFirstBadRecord := by
  intro s rs code tail x k hl hf h3 hx hbad payload hpayload hlen hw
  have hk : parseOne code tail = .error k ∧ (k = .unknownEventCode ∨ k = .invalidEventLength) := by
    obtain ⟨hcode, rfl⟩ | ⟨⟨n, hrow, hshort⟩, rfl⟩ := hbad
    · exact ⟨parseOne_unknown hcode tail, .inl rfl⟩
    · obtain ⟨c, rfl, rfl⟩ := eventCode_of_mem_table hrow
      exact ⟨parseOne_short hshort, .inr rfl⟩
  obtain ⟨hparse, hk⟩ := hk
  have hloop (u : State) : parseSequence payload u = raise k (applyRecords rs u) := by
    rw [hpayload, parseSequence_records, parseSequence_error hparse, applyRecords]
  have hcut : cutPayload .event (BitVec.ofNat 8 (payload.length + 1) :: payload ++ x) = some payload :=
    cutPayload_lp_append rfl (by rw [lengthByte_toNat hlen]; omega) hx
  have hlast : ({ applyRecords rs s with fstate := .header } : State) = applyRecords rs s := by
    rw [← hf, ← applyRecords_fstate rs s]
  calc
    _ = .next { parseSequence payload { s with
          msgType := some .event, out := s.out ++ [.dispatch .event payload] } with fstate := .header } :=
      feedTwo_event hl hf h3 (by simpa [Nat.add_right_comm] using hw) hcut
    _ = .next { ({ applyRecords rs s with fstate := .header } : State) with
          msgType := some .event, out := s.out ++ [.dispatch .event payload, .err k] } := by
      rw [hloop, applyRecords_framed, raise_eventError hk, List.append_assoc]; rfl
    _ = _ := by rw [hlast, applyRecords]

/-- Settles O32: the state the loop leaves (`parseLoop_writesData`), field by field. -/
theorem eventDecoderWritesOnlyItsRegisters : Obligations.EventDecoderWritesOnlyItsRegisters := by
  intro s payload
  obtain ⟨u, evs, hdata, hloop, hevs⟩ := parseLoop_writesData payload.length payload s
  have hframe : parseSequence payload s =
      { s with weight := u.weight, battery := u.battery, timer := u.timer, out := s.out ++ evs } := by
    rw [parseSequence, hloop, hdata.frame]
  exact ⟨_, _, _, evs, hframe, hevs, hdata.weight, hdata.timer⟩

end Sys2Proof.Machine
end

section
/-! SUPPORT. The checksum generator and the frame builder (43_message_encoder.md R160 to R166). The checksum is tied to the
sums of R160 and to the streaming form of R161 by induction over the buffer; BUILD and WRAP answer frames made of it. -/

namespace Sys2Proof.Machine

/-! ### The checksum, by its sums and by its streaming form -/

theorem exec_cksum (p : Buffer) (s : State) :
    exec (.cksum p) s = .next { s with result := some (.checksum (checksum p).1 (checksum p).2) } := rfl

/-- The two bytes of the checksum are the sums of R160: one more byte in front swaps the lanes of both. -/
theorem checksum_toNat (p : Buffer) :
    (checksum p).1.toNat = laneSum 0 p % 256 ∧ (checksum p).2.toNat = laneSum 1 p % 256 := by
  induction p with
  | nil => exact ⟨rfl, rfl⟩
  | cons b p ih =>
    obtain ⟨heven, hodd⟩ := ih
    rw [checksum_cons, laneSum_cons 0 b p (by decide), laneSum_cons 1 b p (by decide)]
    constructor
    · simp [BitVec.toNat_add, hodd]
    · simp [heven]

/-- The two accumulators, in the order of the checksum. -/
def ChecksumStream.lanes (c : ChecksumStream) : Byte × Byte := (c.a1, c.a2)

/-- From any accumulators the streaming form adds the checksum of what is still to come, its lanes swapped where the parity
is odd (R161). -/
theorem foldl_streamByte_lanes (p : Buffer) (c : ChecksumStream) :
    (p.foldl streamByte c).lanes = c.lanes + if c.par then (checksum p).swap else checksum p := by
  induction p generalizing c with
  | nil => simp [ChecksumStream.lanes]
  | cons b p ih =>
    rw [List.foldl_cons, ih, checksum_cons]
    cases h : c.par with
    | false => simp [streamByte, h, ChecksumStream.lanes, Prod.ext_iff, BitVec.add_assoc]
    | true => simp [streamByte, h, ChecksumStream.lanes, Prod.ext_iff, BitVec.add_assoc]

theorem streamChecksum_eq_checksum (p : Buffer) : streamChecksum p = checksum p := by
  calc streamChecksum p
      = (p.foldl streamByte ⟨0, 0, false⟩).lanes := rfl
    _ = checksum p := by rw [foldl_streamByte_lanes]; simp [ChecksumStream.lanes]

/-! ### The frames BUILD and WRAP answer -/

theorem exec_build {s : State} {p : Buffer} (hw : within s.params.maxPayload p.length = true) (t : MsgType) :
    exec (.build t p) s = .next { s with result := some (.buffer (buildFrame t p)) } :=
  if_pos hw

theorem exec_wrap_eq_build {ep : Buffer} (hlen : ep.length ≤ 254) (s : State) :
    exec (.wrap ep) s = exec (.build .event (wrapBody ep)) s :=
  wrapThen_short hlen returnFrame s

theorem exec_wrap {s : State} {ep : Buffer} (hlen : ep.length ≤ 254)
    (hw : within s.params.maxPayload (ep.length + 1) = true) :
    exec (.wrap ep) s = .next { s with result := some (.buffer (wrapFrame ep)) } := by
  rw [exec_wrap_eq_build hlen, exec_build hw, wrapFrame]

theorem wrapFrame_length (ep : Buffer) : (wrapFrame ep).length = ep.length + 6 :=
  buildFrame_length .event (wrapBody ep)

/-- What the host feeds of a wrapped frame: first its header chunk, then its data chunk. -/
theorem wrapFrame_take_three (ep : Buffer) : (wrapFrame ep).take 3 = headerChunk .event := rfl

theorem wrapFrame_drop_three (ep : Buffer) : (wrapFrame ep).drop 3 = eventChunk ep := rfl

/-! ### The obligations -/

/-- Settles O37: the frame splits into an MT_EVENT header chunk and the operand's own data chunk, from which the framer cuts
the operand again (`cutPayload_eventChunk`), so the two FEEDs are an accepted MT_EVENT frame (`feedTwo_event`). -/
theorem wrapFedBackDispatchesItsOperand : Obligations.WrapFedBackDispatchesItsOperand := by
  intro s ep hl hf hlen hp hc
  have hheader : within s.params.maxChunk 3 = true := within_le hc (by omega)
  have hdata : within s.params.maxChunk (eventChunk ep).length = true := by rwa [eventChunk_length]
  have hframe := feedTwo_event hl hf hheader hdata (cutPayload_eventChunk hlen)
  obtain ⟨s1, hfirst, hsecond⟩ := andThen_eq_next hframe
  refine ⟨wrapFrame ep, s1, _, exec_wrap hlen hp, ?_, ?_, rfl⟩
  · rw [wrapFrame_take_three]; exact hfirst
  · rw [wrapFrame_drop_three]; exact hsecond

/-- Settles O33 by `checksum_toNat`. -/
theorem checksumSumsEvenAndOddIndices : Obligations.ChecksumSumsEvenAndOddIndices :=
  fun s p => ⟨_, _, exec_cksum p s, checksum_toNat p⟩

/-- Settles O34: the streaming form from zero accumulators and even parity adds the checksum to nothing. -/
theorem streamingChecksumIsTheChecksum : Obligations.StreamingChecksumIsTheChecksum := by
  intro s p
  rw [streamChecksum_eq_checksum, exec_cksum]

/-- Settles O35: the last two bytes of `buildFrame` are the checksum of its body, whose bytes `checksum_toNat` gives. -/
theorem builtFrameEndsInTheChecksumOfItsBody : Obligations.BuiltFrameEndsInTheChecksumOfItsBody :=
  fun _ t p hw => ⟨_, _, exec_build hw t, checksum_toNat p⟩

/-- Settles O36: below the bound WRAP is BUILD of the wrapped body, whose length byte is not cut off; above it WRAP is
refused (D22). -/
theorem wrapBuildsTheLengthPrefixedBody : Obligations.WrapBuildsTheLengthPrefixedBody := by
  intro s ep
  constructor
  · intro hlen hp
    exact ⟨_, lengthByte_toNat hlen, exec_wrap_eq_build hlen s, wrapFrame ep, exec_wrap hlen hp, wrapFrame_length ep⟩
  · intro hlen
    exact wrapThen_long hlen returnFrame s

end Sys2Proof.Machine
end

section
/-! SUPPORT. The session layer (44_session.md R181 to R195): its life cycle, what runs without a session, and the five
commands, four of which send what their TXF row sends (R83). -/

namespace Sys2Proof.Machine

/-! ### Life cycle -/

/-- Settles O4: `openSession` writes these eight fields, behind no session gate. -/
theorem connectOpensAFreshSession : Obligations.ConnectOpensAFreshSession :=
  fun _ => rfl

theorem exec_disconnect {s : State} (hl : s.live = true) : exec .disconnect s = .next (closeSession s) :=
  inSession_live hl _

/-- Settles O5: the fields that `closeSession` does not leave to a free value. -/
theorem disconnectCancelsAndEndsTheSession : Obligations.DisconnectCancelsAndEndsTheSession := by
  intro s hl
  exact ⟨closeSession s, exec_disconnect hl, closeSession_live s, closeSession_out s, closeSession_inbox s,
    closeSession_result s, closeSession_params s⟩

/-! ### Without a session (R195) -/

theorem feedChunk_notLive {s : State} (hl : s.live = false) (chunk : Buffer) : feedChunk chunk s = .refused .notLive :=
  inSession_notLive hl _

/-- Two chunks are refused at the first. -/
theorem feedTwo_notLive {s : State} (hl : s.live = false) (header data : Buffer) :
    feedTwo header data s = .refused .notLive := by
  rw [feedTwo, feedChunk_notLive hl, andThen_refused]

/-- What needs a session is FEED, a frame or a record, which are two chunks (log 2), or is itself behind the gate. -/
theorem exec_needsSession_notLive {s : State} (hl : s.live = false) {i : Instr} (hi : needsSession i = true) :
    exec i s = .refused .notLive := by
  cases i with
  | connect | cksum | build | wrap => cases hi
  | feed chunk => exact feedChunk_notLive hl chunk
  | mtSystem | mtTare | mtInfo | mtStatus | mtIdentify | mtEvent | mtTimer => exact feedTwo_notLive hl _ _
  | evWeight | evBattery | evTimer | evKey | evAck => exact feedTwo_notLive hl _ _
  | fHeartbeat | fTare | fTimercmd | fIdentify | fNotify => exact inSession_notLive hl _
  | disconnect | heartbeat | tare | timercmd | identify | notify => exact inSession_notLive hl _

/-- Settles O6: the session operations are among the instructions that need a session; CONNECT and the pure operations
complete in every state. -/
theorem withoutASessionOnlyConnectAndPureOperationsRun : Obligations.WithoutASessionOnlyConnectAndPureOperationsRun := by
  intro s hl
  have refused {i : Instr} : needsSession i = true → exec i s = .refused .notLive := exec_needsSession_notLive hl
  exact ⟨fun _ => refused rfl, fun _ => refused rfl, refused rfl, fun _ => refused rfl, refused rfl, refused rfl,
    refused rfl, ⟨_, connectOpensAFreshSession s⟩, fun p => ⟨_, exec_cksum p s⟩, fun t _ hw => ⟨_, exec_build hw t⟩,
    fun _ hlen hw => ⟨_, exec_wrap hlen hw⟩, fun _ => refused⟩

/-! ### HEARTBEAT (R188) -/

/-- In a session a `now` of TS_BITS bits reaches the rate limit. -/
theorem exec_heartbeat {s : State} {now : Nat} (hl : s.live = true) (hbits : fitsBits s.params.tsBits now = true) :
    exec (.heartbeat now) s = sendHeartbeat now s :=
  (inSession_live hl _).trans (if_pos hbits)

theorem sendHeartbeat_early {s : State} {now : Nat} (h : now < s.lastHeartbeatTimestampMillis + 3000) :
    sendHeartbeat now s = .next s := by
  rw [sendHeartbeat_eq, if_pos h]

theorem sendHeartbeat_due {s : State} {now : Nat} (h : s.lastHeartbeatTimestampMillis + 3000 ≤ now)
    (hw : within s.params.maxPayload 2 = true) :
    sendHeartbeat now s = .next { send frameHeartbeat s with lastHeartbeatTimestampMillis := now } := by
  rw [sendHeartbeat_eq, if_neg (Nat.not_lt.mpr h), if_pos hw]

/-- Settles O38: the two sides of the comparison. -/
theorem heartbeatIsRateLimited : Obligations.HeartbeatIsRateLimited := by
  intro s now hl hbits
  rw [exec_heartbeat hl hbits]
  exact ⟨sendHeartbeat_early, sendHeartbeat_due⟩

/-! ### The commands that send what their TXF row sends -/

/-- Settles O39: the frames of the two TXF rows, `frameTare` and `frameIdentify` byte for byte. -/
theorem tareAndIdentifySendTheirFrames : Obligations.TareAndIdentifySendTheirFrames :=
  fun _ hl => ⟨exec_fTare hl, exec_fIdentify hl⟩

theorem exec_timercmd_eq_fTimercmd (cmd : TimerCmd) (s : State) :
    exec (.timercmd cmd) s = exec (.fTimercmd (cmdByte s.params cmd)) s := rfl

/-- The table of R190 gives each command its open code byte (D24). -/
theorem cmdByte_of_mem_table {p : Params} {cmd : TimerCmd} {c : Byte}
    (h : (cmd, c) ∈ [(TimerCmd.start, p.cmdStart), (.stop, p.cmdStop), (.pause, p.cmdPause)]) : cmdByte p cmd = c := by
  simp only [List.mem_cons, Prod.mk.injEq, List.not_mem_nil, or_false] at h
  obtain ⟨rfl, rfl⟩ | ⟨rfl, rfl⟩ | ⟨rfl, rfl⟩ := h
  · rfl
  · rfl
  · rfl

/-- Settles O40: the frame of F_TIMERCMD with the command's code byte. -/
theorem timerCommandGoesOutAsTare : Obligations.TimerCommandGoesOutAsTare := by
  intro s cmd c hl hw hc
  rw [exec_timercmd_eq_fTimercmd, cmdByte_of_mem_table hc]
  exact exec_fTimercmd hl hw c

/-- Settles O41: the frame of F_NOTIFY, which sets the flag without reading it (D29). -/
theorem notifySendsAndRegisters : Obligations.NotifySendsAndRegisters :=
  fun _ hl hw => exec_fNotify hl hw

end Sys2Proof.Machine
end

section
/-! SUPPORT. The rules of 60_exceptions.md: no step faults (R218, R220), what a FEED that only raises an error leaves (R217),
inputs over a finite bound (R226), and the idle step (R225). -/

namespace Sys2Proof.Machine

/-! ### With nothing pending (R225) -/

/-- Settles O47: an empty inbox hands over no delivery. -/
theorem stepIsIdleWithNothingPending : Obligations.StepIsIdleWithNothingPending := by
  intro s hinbox
  have hfetch : fetch s = none := by simp only [fetch, hinbox]
  simp only [step, hfetch, idle]

/-! ### No step faults (R218, R220) -/

/-- Where the invariant holds, a live framer in DATA has a latched type, so FEED does not meet its one fault (log 11). -/
theorem feedChunk_ne_fault {s : State} (hs : s.Inv) (chunk : Buffer) (r : Fault) : feedChunk chunk s ≠ .fault r := by
  intro h
  obtain ⟨hl, -, hdata, hnone⟩ := feedChunk_fault h
  obtain ⟨hlatched, -⟩ := hs
  exact hlatched hl hdata hnone

/-- The first chunk keeps the invariant, so the second does not fault either. -/
theorem feedTwo_ne_fault {s : State} (hs : s.Inv) (header data : Buffer) (r : Fault) :
    feedTwo header data s ≠ .fault r := by
  intro h
  obtain hfirst | ⟨v, hfirst, hsecond⟩ := andThen_eq_fault h
  · exact feedChunk_ne_fault hs header r hfirst
  · exact feedChunk_ne_fault (feedChunk_inv hs hfirst) data r hsecond

theorem exec_ne_fault {s : State} (hs : s.Inv) (i : Instr) (r : Fault) : exec i s ≠ .fault r := by
  cases hi : isFeeding i with
  | true =>
    obtain ⟨c, hexec⟩ | ⟨t, d, hexec⟩ := exec_feeding hi
    · rw [hexec]; exact feedChunk_ne_fault hs c r
    · rw [hexec]; exact feedTwo_ne_fault hs _ d r
  | false => exact exec_rest_ne_fault hi s r

/-- A delivery that is no instruction is fed as two chunks or refused (R90, R226). -/
theorem runUndecoded_cases (d : Delivery) (e : DecodeError) (s : State) :
    (∃ header data, runUndecoded d e s = feedTwo header data s) ∨ ∃ r, runUndecoded d e s = .refused r := by
  cases e with
  | badHeader => exact .inl ⟨_, _, rfl⟩
  | badEvent | notOneRecord =>
    by_cases hlen : d.bytes.length ≤ Config.maxWrap
    · exact .inl ⟨_, _, if_pos hlen⟩
    · exact .inr ⟨_, if_neg hlen⟩
  | emptyOperation | reservedOpsel | opselTooWide | badOperands | unknownBuildType | wrapTooLong | unknownFrame =>
    exact .inr ⟨_, rfl⟩

theorem runUndecoded_ne_fault {s : State} (hs : s.Inv) (d : Delivery) (e : DecodeError) (r : Fault) :
    runUndecoded d e s ≠ .fault r := by
  obtain ⟨header, data, hrun⟩ | ⟨r', hrun⟩ := runUndecoded_cases d e s
  · rw [hrun]; exact feedTwo_ne_fault hs header data r
  · rw [hrun]; nofun

/-- Settles O51: a step is idle, runs the instruction its delivery decodes to, or feeds or refuses a delivery that is none;
taking the delivery keeps the invariant, which does not read the inbox. -/
theorem stepNeverFaults : Obligations.StepNeverFaults := by
  intro s r hs
  cases hinbox : s.inbox with
  | nil => rw [stepIsIdleWithNothingPending s hinbox]; nofun
  | cons d rest =>
    have hfetch := fetch_eq_of_inbox_cons hinbox
    have htaken : ({ s with inbox := rest } : State).Inv := hs
    cases hdecode : decode d with
    | ok i => rw [step_eq_exec_of_decode_ok hfetch hdecode]; exact exec_ne_fault htaken i r
    | error e => rw [step_eq_runUndecoded_of_decode_error hfetch hdecode]; exact runUndecoded_ne_fault htaken d e r

/-! ### A FEED whose whole output is an error (R217, R218) -/

/-- Two states that each append one error to the same output appended the same error. -/
theorem errKind_eq_of_out {o : List OutEvent} {k k' : ErrKind} (h : o ++ [.err k'] = o ++ [.err k]) : k' = k := by
  simpa using h

/-- Such a FEED raised that error and did nothing else: a header kind in HEADER state, InvalidDataLength in DATA state. A
latched type puts out nothing, and an accepted data chunk puts out its Dispatch first. -/
theorem feedChunk_eq_raise_of_out {chunk : Buffer} {k : ErrKind} {s u : State} (h : feedChunk chunk s = .next u)
    (hout : u.out = s.out ++ [.err k]) :
    u = raise k s ∧ (s.fstate = .header ∧ (k = .invalidHeader ∨ k = .unknownMessageType) ∨ k = .invalidDataLength) := by
  obtain ⟨-, -, ⟨hf, rfl⟩ | ⟨-, t, -, h⟩⟩ := feedChunk_next h
  · obtain ⟨t, -, e⟩ | e | e := feedHeader_cases chunk s
    · rw [e] at hout
      simp at hout
    · rw [e, raise_out] at hout
      obtain rfl := errKind_eq_of_out hout
      exact ⟨e, .inl ⟨hf, .inl rfl⟩⟩
    · rw [e, raise_out] at hout
      obtain rfl := errKind_eq_of_out hout
      exact ⟨e, .inl ⟨hf, .inr rfl⟩⟩
  · obtain ⟨-, rfl⟩ | ⟨p, v, -, hv, rfl⟩ := feedData_next h
    · rw [raise_out] at hout
      obtain rfl := errKind_eq_of_out hout
      exact ⟨rfl, .inr rfl⟩
    · obtain ⟨evs, hevs⟩ := dispatcher_out hv
      have hdispatch : v.out = s.out ++ .dispatch t p :: evs := by simpa using hevs
      simp [hdispatch] at hout

/-- A header kind leaves `fstate` (R210), here HEADER already. -/
theorem raise_headerKind {k : ErrKind} {s : State} (hf : s.fstate = .header)
    (hk : k = .invalidHeader ∨ k = .unknownMessageType) :
    raise k s = { s with fstate := .header, out := s.out ++ [.err k] } := by
  rw [← hf]
  obtain rfl | rfl := hk
  · rfl
  · rfl

/-- Settles O16: the FEED is `raise` of its error (`feedChunk_eq_raise_of_out`), which ends in HEADER either way. -/
theorem framerErrorChangesOnlyTheFramerState : Obligations.FramerErrorChangesOnlyTheFramerState := by
  intro s u chunk k h hout
  obtain ⟨rfl, ⟨hf, hk⟩ | rfl⟩ := feedChunk_eq_raise_of_out h hout
  · exact ⟨raise_headerKind hf hk, hk.elim .inl (.inr ∘ .inl)⟩
  · exact ⟨rfl, .inr (.inr rfl)⟩

/-! ### Inputs over a finite bound (R226) -/

theorem fitsBits_eq_false {bits : Option Nat} {w n : Nat} (hw : bits = some w) (h : 2 ^ w ≤ n) :
    fitsBits bits n = false := by
  subst hw
  exact decide_eq_false (Nat.not_lt.mpr h)

theorem exec_feed_tooLong {s : State} {chunk : Buffer} (hl : s.live = true)
    (h : within s.params.maxChunk chunk.length = false) : exec (.feed chunk) s = .refused .chunkTooLong :=
  inSession_refused hl (if_neg (ne_true_of_eq_false h))

theorem exec_build_tooLong {s : State} {p : Buffer} (h : within s.params.maxPayload p.length = false) (t : MsgType) :
    exec (.build t p) s = .refused .payloadTooLong :=
  if_neg (ne_true_of_eq_false h)

theorem exec_heartbeat_tooWide {s : State} {now : Nat} (hl : s.live = true)
    (h : fitsBits s.params.tsBits now = false) : exec (.heartbeat now) s = .refused .nowTooWide :=
  inSession_refused hl (if_neg (ne_true_of_eq_false h))

/-- Settles O7: each input fails the test of its bound; the body of WRAP is BUILD's, with the length byte. -/
theorem inputsOverAFiniteBoundAreRefused : Obligations.InputsOverAFiniteBoundAreRefused := by
  intro s
  refine ⟨fun m chunk hl hm hlen => ?feed, fun m t p hm hlen => ?build, fun m ep hep hm hlen => ?wrap,
    fun w now hl hw hnow => ?heartbeat⟩
  case feed => exact exec_feed_tooLong hl (within_eq_false hm hlen)
  case build => exact exec_build_tooLong (within_eq_false hm hlen) t
  case wrap =>
    rw [exec_wrap_eq_build hep]
    exact exec_build_tooLong (p := wrapBody ep) (within_eq_false hm hlen) .event
  case heartbeat => exact exec_heartbeat_tooWide hl (fitsBits_eq_false hw hnow)

end Sys2Proof.Machine
end

section
/-! SUPPORT. The rules of 70_reset_and_hazards.md: power-on (R240), a header chunk that arrives in DATA state (R244), and the
notification request, assumed registered as soon as it is handed over (R250). -/

namespace Sys2Proof.Machine

/-! ### Power-on (R240) -/

/-- Settles O49: no session is live, the stamp is 0, and nothing has been put out. -/
theorem invariantHoldsAtPowerOn : Obligations.InvariantHoldsAtPowerOn := by
  have hlive : State.reset.live = false := rfl
  have hinv : State.reset.Inv := ⟨fun hl => absurd hl (ne_true_of_eq_false hlive), fitsBits_zero _⟩
  have hout : State.reset.OutputsLegal := List.forall_mem_nil _
  exact ⟨hinv, hout, hlive⟩

/-! ### A header chunk in DATA state (R244) -/

/-- Settles O18: read as data, the length byte is 0xEF and a fixed shape wants 4 bytes, so under a length the chunk is short
(O12); without a length it is accepted, and the dispatcher ignores the types of that shape. -/
theorem headerChunkArrivingInDataState : Obligations.HeaderChunkArrivingInDataState := by
  intro s t b hl hf ht hw
  refine ⟨fun hsized => ?short, fun hunsized => ?dispatched⟩
  case short =>
    refine dataChunkShorterThanDeclaredAborts s t _ hl hf ht hw ?_
    obtain rfl | hlp := List.mem_cons.mp hsized
    · exact .inr (.inl ⟨rfl, by simp⟩)
    · have hshape : t.shape = .lp := by fin_cases hlp <;> rfl
      exact .inl ⟨(shape_lp_iff t).mp hshape, .inr ⟨0xEF, [0xDD, b], rfl, by simp⟩⟩
  case dispatched =>
    have hcut : cutPayload t [0xEF, 0xDD, b] = some [] :=
      cutPayload_nl_accepted ((shape_nl_iff t).mpr hunsized) (by simp)
    have hignored (v : State) : dispatcher t [] v = .next v := by
      fin_cases hunsized <;> rfl
    rw [exec_feed_data (chunk := [0xEF, 0xDD, b]) hl hf ht hw, feedData_cut hcut, hignored]
    rfl

/-! ### The notification request (R250) -/

/-- `u` comes from `s` by feeding, which clears no flag and puts out the notification request only as it sets the flag. -/
structure RequestsOnlyToRegister (s u : State) : Prop where
  registered : s.notificationRegistered = true → u.notificationRegistered = true
  out : ∃ evs, u.out = s.out ++ evs ∧
    (.tx frameNotify ∈ evs → u.notificationRegistered = true ∧ s.notificationRegistered = false)

theorem RequestsOnlyToRegister.refl (s : State) : RequestsOnlyToRegister s s :=
  ⟨id, [], by simp, by simp⟩

/-- Other events put out, with the flag as it was, change nothing of this. -/
theorem RequestsOnlyToRegister.append {s u v : State} {evs : List OutEvent} (h : RequestsOnlyToRegister s u)
    (hflag : v.notificationRegistered = u.notificationRegistered) (hv : v.out = u.out ++ evs)
    (hevs : .tx frameNotify ∉ evs) : RequestsOnlyToRegister s v := by
  obtain ⟨hkept, sofar, hu, hsofar⟩ := h
  rw [← hflag] at hkept hsofar
  exact ⟨hkept, sofar ++ evs, by rw [hv, hu, List.append_assoc],
    fun hmem => hsofar ((List.mem_append.mp hmem).resolve_right hevs)⟩

/-- The handler of MT_STATUS runs with the flag unset, so it was unset from the start: nothing fed clears it. -/
theorem RequestsOnlyToRegister.status {s u : State} (h : RequestsOnlyToRegister s u)
    (hn : u.notificationRegistered = false) : RequestsOnlyToRegister s
      { u with notificationRegistered := true, out := u.out ++ [.tx frameNotify] } := by
  obtain ⟨hkept, sofar, hu, -⟩ := h
  have hs : s.notificationRegistered = false := by simpa [hn] using hkept
  exact ⟨fun _ => rfl, sofar ++ [.tx frameNotify], by simp [hu], fun _ => ⟨rfl, hs⟩⟩

theorem requestsOnlyToRegister_feedClosed (s : State) : FeedClosed (RequestsOnlyToRegister s) where
  framer _ _ _ h := { h with }
  raise k u h := h.append (raise_notificationRegistered k u) (raise_out k u) (by simp)
  dispatch t p u h := h.append rfl (emit_out _ u) (by simp)
  record r u h := h.append (evs := []) (applyRecord_notificationRegistered r u) (by simp) (by simp)
  info _ _ h := h.append rfl rfl (by decide)
  status _ hn h := h.status hn

/-- Of the instructions that feed nothing, only NOTIFY and F_NOTIFY put out the request, and they set the flag. -/
theorem exec_rest_registers {i : Instr} {s u : State} (hi : isFeeding i = false) (h : exec i s = .next u) :
    ∃ evs, u.out = s.out ++ evs ∧ (.tx frameNotify ∈ evs → u.notificationRegistered = true) := by
  obtain ⟨-, rfl⟩ | ⟨-, -, rfl⟩ | ⟨-, r, rfl⟩ | ⟨now, -, -, rfl | ⟨-, -, rfl⟩⟩ | ⟨now, -, -, -, -, rfl⟩ | ⟨-, -, rfl⟩ |
    ⟨-, f, hf, rfl⟩ := exec_rest_cases hi h
  · exact ⟨[], by simp, by simp⟩
  · exact ⟨[.cancelHeartbeat], closeSession_out s, by simp⟩
  · exact ⟨[], by simp, by simp⟩
  · exact ⟨[], by simp, by simp⟩
  · exact ⟨[.tx frameHeartbeat], rfl, fun hmem => absurd hmem (by decide)⟩
  · exact ⟨[.tx frameHeartbeat], rfl, fun hmem => absurd hmem (by decide)⟩
  · exact ⟨[.tx frameNotify], rfl, fun _ => rfl⟩
  · obtain ⟨-, -, hne⟩ := sentFrame_some hf
    exact ⟨[.tx f], rfl, fun hmem => absurd (OutEvent.tx.inj (List.mem_singleton.mp hmem)).symm hne⟩

/-- Settles O55: feeding puts out the request only as it sets the flag, NOTIFY and F_NOTIFY whatever the flag is. -/
theorem registrationIsAssumedOnceRequested : Obligations.RegistrationIsAssumedOnceRequested := by
  intro i s u h
  cases hi : isFeeding i with
  | true =>
    obtain ⟨evs, hout, hevs⟩ := ((requestsOnlyToRegister_feedClosed s).exec hi (.refl s) h).out
    exact ⟨evs, hout, fun hmem => (hevs hmem).imp_right fun hunset _ => hunset⟩
  | false =>
    obtain ⟨evs, hout, hevs⟩ := exec_rest_registers hi h
    exact ⟨evs, hout, fun hmem => ⟨hevs hmem, nofun⟩⟩

end Sys2Proof.Machine
end
